-- ==== Sys2Proof/Word.lean ====
section
/-! DEFINITION. The word types of the block: bytes, 16-bit plane words, 32-bit planar words and addresses (R11). -/

namespace Sys2Proof

/-- A byte, `u8` (R11). -/
abbrev Byte := BitVec 8

/-- A 16-bit word, `u16`: one plane's word of the EGC path (R11, R24). -/
abbrev Half := BitVec 16

/-- A 32-bit word, `u32`: a bus address, a planar word, the data of a doubleword (R11, R12, R44). -/
abbrev Word := BitVec 32

/-- A plane number 0..3 (R12). -/
abbrev Plane := Fin 4

end Sys2Proof
end

