-- ==== Sys2Proof/Syntax.lean ====
section
/-! DEFINITION. The syntax of the block: the selector enumerations and `Instr`, one constructor per row of
spec/opcode_table.json (R100 to R125). -/

namespace Sys2Proof

/-- Handler tags 0..14 of R104, in the order of their codes. -/
inductive Tag where
  | unmapped
  | unchained
  | chainedEga
  | chainedVga
  | chainedVgaSlow
  | chainedVgaEt4k
  | chainedVgaEt4kSlow
  | linear
  | pc98
  | text
  | cgaSnowText
  | hercules
  | tandy
  | pcjr
  | amstrad
  deriving DecidableEq, Repr

/-- Transaction widths of a bus transaction: 1, 2 or 4 bytes (R70, R71). -/
inductive Width where
  | byte
  | word
  | dword
  deriving DecidableEq, Repr

/-- Widths of a PC-98 decoder access: 1 or 2 bytes (R74). -/
inductive PortWidth where
  | byte
  | word
  deriving DecidableEq, Repr

/-- The configuration fields a `CFG` operation can name (R103). -/
inductive CfgField where
  | writeMode
  | readMode
  | rasterOp
  | bitMask
  | mapMask
  | dataRotate
  | setReset
  | enableSetReset
  | colorCompare
  | colorDontCare
  | readMapSelect
  | oddEven
  | chained
  | compatibleChain4
  | bankRead
  | bankWrite
  | bankSize
  | windowSelect
  | displayMode
  | vopMode
  | vopAccess
  | analog16
  | chEn
  | msw (k : Fin 8)
  | egcAccess
  | egcFgc
  | egcLeadPlane
  | egcCompareLead
  | egcLightsource
  | egcShiftinput
  | egcRegload
  | egcRop
  | egcMask
  | egcForeground
  | egcBackground
  | shiftDescend
  | shiftLength
  | shiftSrcbit
  | shiftDstbit
  deriving DecidableEq, Repr

/-- Why the decoder refuses a queue entry (the `BAD_RECORD` of R329). -/
inductive DecodeError where
  /-- The entry has not the length of its format: 9 bytes a record (R101), 10 bytes a frame (log entry 2). -/
  | wrongLength (bytes : Nat)
  /-- An op byte R101 and R102 leave unassigned, the width code 3 of a record among them. -/
  | unassignedOp (op : Byte)
  /-- A width code 3 in a bus selector word (R101, R123). -/
  | reservedWidth
  /-- Handler tag 15 (R104). -/
  | reservedTag
  /-- A selector word that no row of the table matches (R105). -/
  | unassignedSelector (w : Half)
  /-- A `CFG` field id that R103 does not list (log entry 9). -/
  | unassignedField (id : Word)
  /-- A `TILE_LOAD` plane above 3 (R102, log entry 9). -/
  | unassignedPlane (p : Word)
  deriving DecidableEq, Repr

/-- The operations of the block: bus transactions, environment operations and the named internal functions a
transaction is built from (R7, R100). One constructor per row of spec/opcode_table.json. -/
inductive Instr where
  /-- `RD8`: read transaction of 8 bits at a bus address (R70, R101, R202). -/
  | rd8 (addr : Word)
  /-- `RD16`: read transaction of 16 bits at a bus address (R70, R101, R202). -/
  | rd16 (addr : Word)
  /-- `RD32`: read transaction of 32 bits at a bus address (R70, R101, R202). -/
  | rd32 (addr : Word)
  /-- `WR8`: write transaction of 8 bits (R70, R101, R202). -/
  | wr8 (addr : Word) (v : Byte)
  /-- `WR16`: write transaction of 16 bits (R70, R101, R202). -/
  | wr16 (addr : Word) (v : Half)
  /-- `WR32`: write transaction of 32 bits (R70, R101, R202). -/
  | wr32 (addr : Word) (v : Word)
  /-- `CFG`: the environment writes a configuration field (R103). -/
  | cfg (field : CfgField) (v : Word)
  /-- `DISPATCH`: recompute the Binding (R190). -/
  | dispatch
  /-- `RESET`: whole-machine reset (R350). -/
  | reset
  /-- `EGC_REINIT`: the environment reinitialises the Shifter (R253). -/
  | egcReinit
  /-- `TILE_LOAD`: the environment loads a tile register (R236). -/
  | tileLoad (p : Plane) (v : Half)
  /-- `ROP.NONE`: `RasterOp(input, mask)` with that combination (R130). -/
  | ropNone (input mask : Word)
  /-- `ROP.AND`: `RasterOp(input, mask)` with that combination (R131). -/
  | ropAnd (input mask : Word)
  /-- `ROP.OR`: `RasterOp(input, mask)` with that combination (R132). -/
  | ropOr (input mask : Word)
  /-- `ROP.XOR`: `RasterOp(input, mask)` with that combination (R133). -/
  | ropXor (input mask : Word)
  /-- `WM0`: `ModeOperation(val)` under write mode 0 (R134). -/
  | wm0 (val : Byte)
  /-- `WM1`: `ModeOperation(val)` under write mode 1 (R135). -/
  | wm1 (val : Byte)
  /-- `WM2`: `ModeOperation(val)` under write mode 2 (R136). -/
  | wm2 (val : Byte)
  /-- `WM3`: `ModeOperation(val)` under write mode 3 (R137). -/
  | wm3 (val : Byte)
  /-- `WM.UNSUP`: `ModeOperation(val)` under an unsupported write mode (R138). -/
  | wmUnsup (mode val : Byte)
  /-- `RM0`: `PlanarRead(idx, raw, plane)` under read mode 0, Latch load included (R153, R155). -/
  | rm0 (idx : Word) (raw : Bool) (plane : Plane)
  /-- `RM1`: `PlanarRead(idx, raw, plane)` under read mode 1, Latch load included (R153, R156). -/
  | rm1 (idx : Word) (raw : Bool) (plane : Plane)
  /-- `UNMAPPED.RD`: read served by the handler `UNMAPPED` (R83). -/
  | unmappedRd (w : Width) (addr : Word)
  /-- `UNMAPPED.WR`: write served by the handler `UNMAPPED` (R83). -/
  | unmappedWr (w : Width) (addr data : Word)
  /-- `UNCHAINED.RD`: read served by the handler `UNCHAINED` (R154). -/
  | unchainedRd (w : Width) (addr : Word)
  /-- `UNCHAINED.WR`: write served by the handler `UNCHAINED` (R157). -/
  | unchainedWr (w : Width) (addr data : Word)
  /-- `CHAINED_EGA.RD`: read served by the handler `CHAINED_EGA` (R174). -/
  | chainedEgaRd (w : Width) (addr : Word)
  /-- `CHAINED_EGA.WR`: write served by the handler `CHAINED_EGA` (R175). -/
  | chainedEgaWr (w : Width) (addr data : Word)
  /-- `CHAINED_VGA.RD`: read served by the handler `CHAINED_VGA` (R161). -/
  | chainedVgaRd (w : Width) (addr : Word)
  /-- `CHAINED_VGA.WR`: write served by the handler `CHAINED_VGA` (R162). -/
  | chainedVgaWr (w : Width) (addr data : Word)
  /-- `CHAINED_VGA_SLOW.RD`: read served by the handler `CHAINED_VGA_SLOW` (R166). -/
  | chainedVgaSlowRd (w : Width) (addr : Word)
  /-- `CHAINED_VGA_SLOW.WR`: write served by the handler `CHAINED_VGA_SLOW` (R167). -/
  | chainedVgaSlowWr (w : Width) (addr data : Word)
  /-- `CHAINED_VGA_ET4K.RD`: read served by the handler `CHAINED_VGA_ET4K` (R168). -/
  | chainedVgaEt4kRd (w : Width) (addr : Word)
  /-- `CHAINED_VGA_ET4K.WR`: write served by the handler `CHAINED_VGA_ET4K` (R169). -/
  | chainedVgaEt4kWr (w : Width) (addr data : Word)
  /-- `CHAINED_VGA_ET4K_SLOW.RD`: read served by the handler `CHAINED_VGA_ET4K_SLOW` (R170). -/
  | chainedVgaEt4kSlowRd (w : Width) (addr : Word)
  /-- `CHAINED_VGA_ET4K_SLOW.WR`: write served by the handler `CHAINED_VGA_ET4K_SLOW` (R171). -/
  | chainedVgaEt4kSlowWr (w : Width) (addr data : Word)
  /-- `LINEAR.RD`: read served by the handler `LINEAR` (R176). -/
  | linearRd (w : Width) (addr : Word)
  /-- `LINEAR.WR`: write served by the handler `LINEAR` (R177). -/
  | linearWr (w : Width) (addr data : Word)
  /-- `PC98.RD`: read served by the handler `PC98` (R212). -/
  | pc98Rd (w : Width) (addr : Word)
  /-- `PC98.WR`: write served by the handler `PC98` (R212). -/
  | pc98Wr (w : Width) (addr data : Word)
  /-- `TEXT.RD`: read served by the handler `TEXT` (R178). -/
  | textRd (w : Width) (addr : Word)
  /-- `TEXT.WR`: write served by the handler `TEXT` (R178). -/
  | textWr (w : Width) (addr data : Word)
  /-- `CGA_SNOW_TEXT.RD`: read served by the handler `CGA_SNOW_TEXT` (R178). -/
  | cgaSnowTextRd (w : Width) (addr : Word)
  /-- `CGA_SNOW_TEXT.WR`: write served by the handler `CGA_SNOW_TEXT` (R178). -/
  | cgaSnowTextWr (w : Width) (addr data : Word)
  /-- `HERCULES.RD`: read served by the handler `HERCULES` (R178). -/
  | herculesRd (w : Width) (addr : Word)
  /-- `HERCULES.WR`: write served by the handler `HERCULES` (R178). -/
  | herculesWr (w : Width) (addr data : Word)
  /-- `TANDY.RD`: read served by the handler `TANDY` (R178). -/
  | tandyRd (w : Width) (addr : Word)
  /-- `TANDY.WR`: write served by the handler `TANDY` (R178). -/
  | tandyWr (w : Width) (addr data : Word)
  /-- `PCJR.RD`: read served by the handler `PCJR` (R178). -/
  | pcjrRd (w : Width) (addr : Word)
  /-- `PCJR.WR`: write served by the handler `PCJR` (R178). -/
  | pcjrWr (w : Width) (addr data : Word)
  /-- `AMSTRAD.RD`: read served by the handler `AMSTRAD` (R178). -/
  | amstradRd (w : Width) (addr : Word)
  /-- `AMSTRAD.WR`: write served by the handler `AMSTRAD` (R178). -/
  | amstradWr (w : Width) (addr data : Word)
  /-- `PC98.MSW.RD`: decoder read in the region MSW (R214). -/
  | pc98MswRd (n : PortWidth) (addr : Word)
  /-- `PC98.MSW.WR`: decoder write in the region MSW (R215). -/
  | pc98MswWr (n : PortWidth) (addr : Word) (v : Half)
  /-- `PC98.CHAR.RD`: decoder read in the region CHAR (R216). -/
  | pc98CharRd (n : PortWidth) (addr : Word)
  /-- `PC98.CHAR.WR`: decoder write in the region CHAR (R217). -/
  | pc98CharWr (n : PortWidth) (addr : Word) (v : Half)
  /-- `PC98.ATTR.RD`: decoder read in the region ATTR (R218). -/
  | pc98AttrRd (n : PortWidth) (addr : Word)
  /-- `PC98.ATTR.WR`: decoder write in the region ATTR (R219). -/
  | pc98AttrWr (n : PortWidth) (addr : Word) (v : Half)
  /-- `PC98.UNKNOWN.RD`: decoder read in the region UNKNOWN (R220). -/
  | pc98UnknownRd (n : PortWidth) (addr : Word)
  /-- `PC98.UNKNOWN.WR`: decoder write in the region UNKNOWN (R220). -/
  | pc98UnknownWr (n : PortWidth) (addr : Word) (v : Half)
  /-- `PC98.ABSENT.RD`: decoder read in the region ABSENT (R221). -/
  | pc98AbsentRd (n : PortWidth) (addr : Word)
  /-- `PC98.ABSENT.WR`: decoder write in the region ABSENT (R221). -/
  | pc98AbsentWr (n : PortWidth) (addr : Word) (v : Half)
  /-- `PC98.GRAPHICS.RD`: decoder read in the region GRAPHICS (R222). -/
  | pc98GraphicsRd (n : PortWidth) (addr : Word)
  /-- `PC98.GRAPHICS.WR`: decoder write in the region GRAPHICS (R222). -/
  | pc98GraphicsWr (n : PortWidth) (addr : Word) (v : Half)
  /-- `VOP.PASS.RD`: graphics read, VRAM operation PASS; `mode` are the bits of `vop_mode` the row leaves free (R224). -/
  | vopPassRd (mode : BitVec 3) (n : PortWidth) (off : BitVec 18)
  /-- `VOP.PASS.WR`: graphics write, VRAM operation PASS (R225). -/
  | vopPassWr (mode : BitVec 3) (n : PortWidth) (off : BitVec 18) (v : Half)
  /-- `VOP.TILE_COPY.RD`: graphics read, VRAM operation TILE_COPY; `mode` are the bits of `vop_mode` the row leaves free (R226). -/
  | vopTileCopyRd (mode : BitVec 1) (n : PortWidth) (off : BitVec 18)
  /-- `VOP.TILE_COPY.WR`: graphics write, VRAM operation TILE_COPY (R228). -/
  | vopTileCopyWr (mode : BitVec 1) (n : PortWidth) (off : BitVec 18) (v : Half)
  /-- `VOP.TILE_MASK.RD`: graphics read, VRAM operation TILE_MASK; `mode` are the bits of `vop_mode` the row leaves free (R230). -/
  | vopTileMaskRd (mode : BitVec 1) (n : PortWidth) (off : BitVec 18)
  /-- `VOP.TILE_MASK.WR`: graphics write, VRAM operation TILE_MASK (R232). -/
  | vopTileMaskWr (mode : BitVec 1) (n : PortWidth) (off : BitVec 18) (v : Half)
  /-- `VOP.EGC.RD`: graphics read, VRAM operation EGC; `mode` are the bits of `vop_mode` the row leaves free (R304). -/
  | vopEgcRd (mode : BitVec 2) (n : PortWidth) (off : BitVec 18)
  /-- `VOP.EGC.WR`: graphics write, VRAM operation EGC (R280). -/
  | vopEgcWr (mode : BitVec 2) (n : PortWidth) (off : BitVec 18) (v : Half)
  /-- `SH.REINIT`: Shifter `reinit` (R250). -/
  | shReinit
  /-- `SH.IN8`: Shifter `input`, one byte per plane (R256). -/
  | shIn8 (q0 q1 q2 q3 : Byte) (odd : Bool)
  /-- `SH.IN16`: Shifter `input`, one word per plane (R260). -/
  | shIn16 (q0 q1 q2 q3 : Half)
  /-- `SH.OUT8`: Shifter `output` for one byte lane (R262). -/
  | shOut8 (lane rec : Bool)
  /-- `SH.OUT16`: Shifter `output` for a word (R266). -/
  | shOut16
  /-- `SH.DMASK`: the boundary mask `dstbit_mask()` (R261). -/
  | shDmask
  /-- `EGC.LS0`: the data and mask of an EGC write under light source 0 (R284). -/
  | egcLs0 (a : BitVec 15) (n : PortWidth) (val : Half)
  /-- `EGC.LS1`: the data and mask of an EGC write under light source 1 (R285). -/
  | egcLs1 (a : BitVec 15) (n : PortWidth) (val : Half)
  /-- `EGC.LS2`: the data and mask of an EGC write under light source 2 (R286). -/
  | egcLs2 (a : BitVec 15) (n : PortWidth) (val : Half)
  /-- `EGC.LS3`: the data and mask of an EGC write under light source 3 (R287). -/
  | egcLs3 (a : BitVec 15) (n : PortWidth) (val : Half)
  /-- `EGC.FGC0`: the pattern term under `egc_fgc = 0` (R295). -/
  | egcFgc0
  /-- `EGC.FGC1`: the pattern term under `egc_fgc = 1` (R295). -/
  | egcFgc1
  /-- `EGC.FGC2`: the pattern term under `egc_fgc = 2` (R295). -/
  | egcFgc2
  /-- `EGC.FGC3`: the pattern term under `egc_fgc = 3` (R295). -/
  | egcFgc3
  /-- `EGC.RL.NONE`: register-load mode 0: no load (R117). -/
  | egcRlNone
  /-- `EGC.RL.READ`: register load on read; `both` is bit 1 of the field, value 3 (R306, R117). -/
  | egcRlRead (both : Bool) (a : BitVec 15) (n : PortWidth)
  /-- `EGC.RL.WRITE`: register load on write (R300). -/
  | egcRlWrite (a : BitVec 15) (n : PortWidth)
  /-- `EGCROP.C0`: entry 0xC0 of the Boolean-Combination Table (R290). -/
  | egcropC0 (a : BitVec 15)
  /-- `EGCROP.F0`: entry 0xF0 of the Boolean-Combination Table (R291). -/
  | egcropF0 (a : BitVec 15)
  /-- `EGCROP.FC`: entry 0xFC of the Boolean-Combination Table (R292). -/
  | egcropFC (a : BitVec 15)
  /-- `EGCROP.0C`: entry 0x0C of the Boolean-Combination Table (R293). -/
  | egcrop0C (a : BitVec 15)
  /-- `EGCROP.PAT`: the pattern-gated entry, `code = EGC_ROP_PAT_CODE` (R294). -/
  | egcropPat (code : Byte) (a : BitVec 15)
  /-- `EGCROP.STUB`: an unimplemented entry (R296). -/
  | egcropStub (code : Byte) (a : BitVec 15)
  /-- `DISP.UNMAPPED`: Dispatch with `UNMAPPED` the selected handler (R190 to R198). -/
  | dispUnmapped
  /-- `DISP.UNCHAINED`: Dispatch with `UNCHAINED` the selected handler (R190 to R198). -/
  | dispUnchained
  /-- `DISP.CHAINED_EGA`: Dispatch with `CHAINED_EGA` the selected handler (R190 to R198). -/
  | dispChainedEga
  /-- `DISP.CHAINED_VGA`: Dispatch with `CHAINED_VGA` the selected handler (R190 to R198). -/
  | dispChainedVga
  /-- `DISP.CHAINED_VGA_SLOW`: Dispatch with `CHAINED_VGA_SLOW` the selected handler (R190 to R198). -/
  | dispChainedVgaSlow
  /-- `DISP.CHAINED_VGA_ET4K`: Dispatch with `CHAINED_VGA_ET4K` the selected handler (R190 to R198). -/
  | dispChainedVgaEt4k
  /-- `DISP.CHAINED_VGA_ET4K_SLOW`: Dispatch with `CHAINED_VGA_ET4K_SLOW` the selected handler (R190 to R198). -/
  | dispChainedVgaEt4kSlow
  /-- `DISP.LINEAR`: Dispatch with `LINEAR` the selected handler (R190 to R198). -/
  | dispLinear
  /-- `DISP.PC98`: Dispatch with `PC98` the selected handler (R190 to R198). -/
  | dispPc98
  /-- `DISP.TEXT`: Dispatch with `TEXT` the selected handler (R190 to R198). -/
  | dispText
  /-- `DISP.CGA_SNOW_TEXT`: Dispatch with `CGA_SNOW_TEXT` the selected handler (R190 to R198). -/
  | dispCgaSnowText
  /-- `DISP.HERCULES`: Dispatch with `HERCULES` the selected handler (R190 to R198). -/
  | dispHercules
  /-- `DISP.TANDY`: Dispatch with `TANDY` the selected handler (R190 to R198). -/
  | dispTandy
  /-- `DISP.PCJR`: Dispatch with `PCJR` the selected handler (R190 to R198). -/
  | dispPcjr
  /-- `DISP.AMSTRAD`: Dispatch with `AMSTRAD` the selected handler (R190 to R198). -/
  | dispAmstrad
  /-- `WINSEL.0`: `BindWindow(h, 0)` (R200). -/
  | winsel0 (h : Tag)
  /-- `WINSEL.1`: `BindWindow(h, 1)` (R200). -/
  | winsel1 (h : Tag)
  /-- `WINSEL.2`: `BindWindow(h, 2)` (R200). -/
  | winsel2 (h : Tag)
  /-- `WINSEL.3`: `BindWindow(h, 3)` (R200). -/
  | winsel3 (h : Tag)
  deriving DecidableEq, Repr

end Sys2Proof
end

