-- ==== Sys2Proof/Config.lean ====
section
/-! DEFINITION. The implementation parameters of R8, the values this model's reset instance gives them (log entry 4),
and the free value of the model, an opaque constant with no body (log entry 15). -/

namespace Sys2Proof

/-- `MACHINE`, the machine type the dispatcher observes (R8, R38). -/
inductive Machine.MachineType where
  | cga
  | hercules
  | tandy
  | pcjr
  | amstrad
  | egavga
  | pc98
  deriving DecidableEq, Repr

/-- `SVGA_VENDOR` (R8). -/
inductive Machine.Vendor where
  | et4000
  | other
  deriving DecidableEq, Repr

/-- `LFB_SIZE`: the four sizes of the linear framebuffer window (R8, R81). -/
inductive Machine.LfbSize where
  | kb64
  | mb1
  | mb2
  | mb4
  deriving DecidableEq, Repr

/-- The linear framebuffer window, where the platform has one (R81, R201). -/
structure Machine.Lfb where
  base : Word
  size : Machine.LfbSize
  deriving DecidableEq, Repr

/-- The parameters of one instance of the block (R8). Nothing writes them. `VMEMSIZE` is a power of two, so its
base-2 logarithm is held; `WRAP` and `WRAP4` are functions of it. -/
structure Machine.Platform where
  /-- log2 of `VMEMSIZE` (R21). -/
  vmemBits : Nat
  /-- `MACHINE`. -/
  machine : Machine.MachineType
  /-- `SVGA_VENDOR`. -/
  vendor : Machine.Vendor
  /-- `WIN_BASE[0..3]`. -/
  winBase : Vector Word 4
  /-- `LFB_BASE` and `LFB_SIZE`; `none` is `LFB_SIZE = 0`, no such window (R201). -/
  lfb : Option Machine.Lfb
  /-- `VOP_PAGE_OFFSET` (R85). -/
  vopPageOffset : Word
  /-- `EGC_ROP_PAT_CODE`; `none` is unset, the entry does not exist (R294). -/
  patCode : Option Byte
  /-- `READ_DELAY` (R370). -/
  readDelay : Nat
  /-- `WRITE_DELAY` (R370). -/
  writeDelay : Nat
  /-- The snow-emulation switch that R192 names (log entry 17). -/
  cgaSnow : Bool
  deriving DecidableEq, Repr

/-- The parameters of the reset instance: the defaults R8 gives, and DESIGN CHOICE values where R8 gives none
(log entry 4). -/
def Config.platform : Machine.Platform where
  vmemBits := 19
  machine := .egavga
  vendor := .other
  winBase := #v[0xA0000#32, 0xA0000#32, 0xB0000#32, 0xB8000#32]
  lfb := none
  vopPageOffset := 0x20000#32
  patCode := none
  readDelay := 1
  writeDelay := 2
  cgaSnow := false

/-- FREE VALUE (log entry 15): the page ranges, as (first page, number of pages), that `BindLegacy` binds to a legacy
handler. R192 says they are not in the source and leaves `BindLegacy` without definition. -/
opaque Config.legacyPages : Tag → List (Nat × Nat)

end Sys2Proof
end

