-- ==== Sys2Proof/WellFormed.lean ====
section
/-! DEFINITION. Which instruction terms stand for an encoding of the table, and which parameter choices R8 allows. -/

namespace Sys2Proof

/-- The four codes of the Boolean-Combination Table that the source names (R114, R294). -/
def namedRopCodes : List Byte := [0xC0#8, 0xF0#8, 0xFC#8, 0x0C#8]

/-- An instruction term is well formed under the parameter `EGC_ROP_PAT_CODE` when its selector word is matched by its
own row of the table (R105): the catch-all rows `WM.UNSUP` and `EGCROP.STUB` hold no value that another row has, and
`EGCROP.PAT` holds exactly the parameter's code, which is none of the four named ones (R294). -/
def Instr.wf (pat : Option Byte) : Instr → Bool
  | .wmUnsup mode _ => decide (4 ≤ mode.toNat)
  | .egcropPat code _ => pat == some code && !namedRopCodes.contains code
  | .egcropStub code _ => pat != some code && !namedRopCodes.contains code
  | _ => true

/-- The constraints R8 puts on the parameters alone: at least 0x80000 bytes of VRAM on a PC-98 machine, which never binds
another decoder (R197), `WRITE_DELAY >= READ_DELAY`, and a pattern code outside the four named ones. That `VMEMSIZE` is at
least one planar word and at most 2^32 is the model's choice, R8 says only a power of two (log entry 38). A machine that
binds the PC-98 decoder by its display mode is held to 0x80000 by `Platform.allows`. -/
def Machine.Platform.wf (p : Machine.Platform) : Bool :=
  decide (2 ≤ p.vmemBits) && decide (p.vmemBits ≤ 32) &&
    (p.machine != .pc98 || decide (19 ≤ p.vmemBits)) &&
    decide (p.readDelay ≤ p.writeDelay) &&
    (match p.patCode with
     | none => true
     | some c => !namedRopCodes.contains c)

end Sys2Proof
end

