-- ==== Sys2Proof/Decode.lean ====
section
/-! DEFINITION. The decoder of queue entries, total on any bytes and refusing by name, and the encoder: 9-byte records
(R101, R102) and 10-byte selector frames (the 16-bit selector word of R105 and eight operand bytes, log entry 2). -/

namespace Sys2Proof

/-! ### Little-endian packing (R72, R101) -/

/-- Byte `k` of a 32-bit value, byte 0 the least significant. -/
def byteOf (v : Word) (k : Nat) : Byte := v.extractLsb' (8 * k) 8

/-- The 16-bit value of two bytes, the low byte first. -/
def le16 (b0 b1 : Byte) : Half := b1 ++ b0

/-- The 32-bit value of four bytes, the low byte first. -/
def le32 (b0 b1 b2 b3 : Byte) : Word := (b3 ++ b2) ++ (b1 ++ b0)

/-- The four bytes of a 32-bit value, the low byte first. -/
def bytes32 (v : Word) : List Byte := [byteOf v 0, byteOf v 1, byteOf v 2, byteOf v 3]

/-- The two bytes of a 16-bit value, the low byte first. -/
def bytes16 (v : Half) : List Byte := [v.extractLsb' 0 8, v.extractLsb' 8 8]

/-! ### Codes of the enumerations -/

/-- The 4-bit code of a handler tag (R104). -/
def Tag.code : Tag → Nat
  | .unmapped => 0
  | .unchained => 1
  | .chainedEga => 2
  | .chainedVga => 3
  | .chainedVgaSlow => 4
  | .chainedVgaEt4k => 5
  | .chainedVgaEt4kSlow => 6
  | .linear => 7
  | .pc98 => 8
  | .text => 9
  | .cgaSnowText => 10
  | .hercules => 11
  | .tandy => 12
  | .pcjr => 13
  | .amstrad => 14

/-- The handler tag of a code; 15 is reserved (R104). -/
def Tag.ofCode : Nat → Option Tag
  | 0 => some .unmapped
  | 1 => some .unchained
  | 2 => some .chainedEga
  | 3 => some .chainedVga
  | 4 => some .chainedVgaSlow
  | 5 => some .chainedVgaEt4k
  | 6 => some .chainedVgaEt4kSlow
  | 7 => some .linear
  | 8 => some .pc98
  | 9 => some .text
  | 10 => some .cgaSnowText
  | 11 => some .hercules
  | 12 => some .tandy
  | 13 => some .pcjr
  | 14 => some .amstrad
  | _ => none

/-- The width code of a bus transaction (R101). -/
def Width.code : Width → Nat
  | .byte => 0
  | .word => 1
  | .dword => 2

/-- The width of a width code; 3 is reserved (R101). -/
def Width.ofCode : Nat → Option Width
  | 0 => some .byte
  | 1 => some .word
  | 2 => some .dword
  | _ => none

/-- The field id of a configuration field (R103). -/
def CfgField.id : CfgField → Nat
  | .writeMode => 0x0
  | .readMode => 0x1
  | .rasterOp => 0x2
  | .bitMask => 0x3
  | .mapMask => 0x4
  | .dataRotate => 0x5
  | .setReset => 0x6
  | .enableSetReset => 0x7
  | .colorCompare => 0x8
  | .colorDontCare => 0x9
  | .readMapSelect => 0xA
  | .oddEven => 0xB
  | .chained => 0xC
  | .compatibleChain4 => 0xD
  | .bankRead => 0xE
  | .bankWrite => 0xF
  | .bankSize => 0x10
  | .windowSelect => 0x11
  | .displayMode => 0x12
  | .vopMode => 0x20
  | .vopAccess => 0x21
  | .analog16 => 0x22
  | .chEn => 0x23
  | .msw k => 0x24 + k.val
  | .egcAccess => 0x30
  | .egcFgc => 0x31
  | .egcLeadPlane => 0x32
  | .egcCompareLead => 0x33
  | .egcLightsource => 0x34
  | .egcShiftinput => 0x35
  | .egcRegload => 0x36
  | .egcRop => 0x37
  | .egcMask => 0x38
  | .egcForeground => 0x39
  | .egcBackground => 0x3A
  | .shiftDescend => 0x3B
  | .shiftLength => 0x3C
  | .shiftSrcbit => 0x3D
  | .shiftDstbit => 0x3E

/-- The configuration field of a field id (R103); other ids are unassigned. -/
def CfgField.ofId : Nat → Option CfgField
  | 0x0 => some .writeMode
  | 0x1 => some .readMode
  | 0x2 => some .rasterOp
  | 0x3 => some .bitMask
  | 0x4 => some .mapMask
  | 0x5 => some .dataRotate
  | 0x6 => some .setReset
  | 0x7 => some .enableSetReset
  | 0x8 => some .colorCompare
  | 0x9 => some .colorDontCare
  | 0xA => some .readMapSelect
  | 0xB => some .oddEven
  | 0xC => some .chained
  | 0xD => some .compatibleChain4
  | 0xE => some .bankRead
  | 0xF => some .bankWrite
  | 0x10 => some .bankSize
  | 0x11 => some .windowSelect
  | 0x12 => some .displayMode
  | 0x20 => some .vopMode
  | 0x21 => some .vopAccess
  | 0x22 => some .analog16
  | 0x23 => some .chEn
  | 0x24 => some (.msw 0)
  | 0x25 => some (.msw 1)
  | 0x26 => some (.msw 2)
  | 0x27 => some (.msw 3)
  | 0x28 => some (.msw 4)
  | 0x29 => some (.msw 5)
  | 0x2A => some (.msw 6)
  | 0x2B => some (.msw 7)
  | 0x30 => some .egcAccess
  | 0x31 => some .egcFgc
  | 0x32 => some .egcLeadPlane
  | 0x33 => some .egcCompareLead
  | 0x34 => some .egcLightsource
  | 0x35 => some .egcShiftinput
  | 0x36 => some .egcRegload
  | 0x37 => some .egcRop
  | 0x38 => some .egcMask
  | 0x39 => some .egcForeground
  | 0x3A => some .egcBackground
  | 0x3B => some .shiftDescend
  | 0x3C => some .shiftLength
  | 0x3D => some .shiftSrcbit
  | 0x3E => some .shiftDstbit
  | _ => none

/-! ### Selector frames (R105) -/

/-- A selector frame: the selector word and the two 32-bit operand words that follow it (log entry 2). -/
structure Frame where
  /-- The selector word `{fmt[15:12], sub[11:0]}` of R105. -/
  sel : Half
  /-- Operand bytes 2..5: the bus address or the first operand. -/
  x : Word
  /-- Operand bytes 6..9: the data or the second operand. -/
  y : Word
  deriving DecidableEq, Repr

/-- The ten bytes of a frame, in the order they are stored. -/
def Frame.bytes (f : Frame) : List Byte := bytes16 f.sel ++ (bytes32 f.x ++ bytes32 f.y)

/-- The frame of ten bytes. -/
def Frame.ofBytes : List Byte → Except DecodeError Frame
  | [s0, s1, x0, x1, x2, x3, y0, y1, y2, y3] => .ok ⟨le16 s0 s1, le32 x0 x1 x2 x3, le32 y0 y1 y2 y3⟩
  | bs => .error (.wrongLength bs.length)

/-! ### Operand layouts of the internal functions (log entry 2) -/

/-- A decoder access's second operand: the host value in bits 15:0, the width in bit 16 (1 = word). -/
def packPort (n : PortWidth) (v : Half) : Word :=
  (match n with
   | .byte => 0x0000#16
   | .word => 0x0001#16) ++ v

/-- The width of a decoder access's second operand. -/
def portWidth (y : Word) : PortWidth := if y.getLsbD 16 then .word else .byte

/-- The host value of a decoder access's second operand. -/
def portValue (y : Word) : Half := y.setWidth 16

/-- A Boolean as a 32-bit operand, in bit `k`. -/
def packBit (b : Bool) (k : Nat) : Word := if b then 1#32 <<< k else 0#32

/-- The plane in the low two bits of an operand. -/
def planeOf (v : Word) : Plane := (v.extractLsb' 0 2).toFin

/-- A plane as a 32-bit operand. -/
def packPlane (p : Plane) : Word := BitVec.ofNat 32 p.val

/-! ### Decoding one format of selector words each (R105)

A selector word is matched as `(word & mask) == match`: the bits a row's mask leaves out take no part. -/

/-- The read row of a handler tag. -/
def Instr.busRd (w : Width) (addr : Word) : Tag → Instr
  | .unmapped => .unmappedRd w addr
  | .unchained => .unchainedRd w addr
  | .chainedEga => .chainedEgaRd w addr
  | .chainedVga => .chainedVgaRd w addr
  | .chainedVgaSlow => .chainedVgaSlowRd w addr
  | .chainedVgaEt4k => .chainedVgaEt4kRd w addr
  | .chainedVgaEt4kSlow => .chainedVgaEt4kSlowRd w addr
  | .linear => .linearRd w addr
  | .pc98 => .pc98Rd w addr
  | .text => .textRd w addr
  | .cgaSnowText => .cgaSnowTextRd w addr
  | .hercules => .herculesRd w addr
  | .tandy => .tandyRd w addr
  | .pcjr => .pcjrRd w addr
  | .amstrad => .amstradRd w addr

/-- The write row of a handler tag. -/
def Instr.busWr (w : Width) (addr data : Word) : Tag → Instr
  | .unmapped => .unmappedWr w addr data
  | .unchained => .unchainedWr w addr data
  | .chainedEga => .chainedEgaWr w addr data
  | .chainedVga => .chainedVgaWr w addr data
  | .chainedVgaSlow => .chainedVgaSlowWr w addr data
  | .chainedVgaEt4k => .chainedVgaEt4kWr w addr data
  | .chainedVgaEt4kSlow => .chainedVgaEt4kSlowWr w addr data
  | .linear => .linearWr w addr data
  | .pc98 => .pc98Wr w addr data
  | .text => .textWr w addr data
  | .cgaSnowText => .cgaSnowTextWr w addr data
  | .hercules => .herculesWr w addr data
  | .tandy => .tandyWr w addr data
  | .pcjr => .pcjrWr w addr data
  | .amstrad => .amstradWr w addr data

/-- The dispatcher row of a handler tag. -/
def Instr.disp : Tag → Instr
  | .unmapped => .dispUnmapped
  | .unchained => .dispUnchained
  | .chainedEga => .dispChainedEga
  | .chainedVga => .dispChainedVga
  | .chainedVgaSlow => .dispChainedVgaSlow
  | .chainedVgaEt4k => .dispChainedVgaEt4k
  | .chainedVgaEt4kSlow => .dispChainedVgaEt4kSlow
  | .linear => .dispLinear
  | .pc98 => .dispPc98
  | .text => .dispText
  | .cgaSnowText => .dispCgaSnowText
  | .hercules => .dispHercules
  | .tandy => .dispTandy
  | .pcjr => .dispPcjr
  | .amstrad => .dispAmstrad

/-- Format 0, BUS: tag in `sub[11:8]`, direction in `sub[2]`, width code in `sub[1:0]`. -/
def decodeBus (f : Frame) : Except DecodeError Instr :=
  match Tag.ofCode (f.sel.extractLsb' 8 4).toNat with
  | none => .error .reservedTag
  | some t =>
    match Width.ofCode (f.sel.extractLsb' 0 2).toNat with
    | none => .error .reservedWidth
    | some w => .ok (if f.sel.getLsbD 2 then Instr.busWr w f.x f.y t else Instr.busRd w f.x t)

/-- Format 1, WMODE: `write_mode` in `sub[7:0]`; 4..255 is the catch-all row. -/
def decodeWmode (f : Frame) : Except DecodeError Instr :=
  let val : Byte := f.x.setWidth 8
  match (f.sel.extractLsb' 0 8).toNat with
  | 0 => .ok (.wm0 val)
  | 1 => .ok (.wm1 val)
  | 2 => .ok (.wm2 val)
  | 3 => .ok (.wm3 val)
  | _ => .ok (.wmUnsup (f.sel.extractLsb' 0 8) val)

/-- Format 2, RMODE: `read_mode` in `sub[0]`; the plane in bits 1:0 and the address's low bit in bit 2 of the second
operand. -/
def decodeRmode (f : Frame) : Except DecodeError Instr :=
  if f.sel.getLsbD 0 then .ok (.rm1 f.x (f.y.getLsbD 2) (planeOf f.y))
  else .ok (.rm0 f.x (f.y.getLsbD 2) (planeOf f.y))

/-- Format 3, ROPSEL: `raster_op` in `sub[1:0]`. -/
def decodeRopsel (f : Frame) : Except DecodeError Instr :=
  match (f.sel.extractLsb' 0 2).toNat with
  | 0 => .ok (.ropNone f.x f.y)
  | 1 => .ok (.ropAnd f.x f.y)
  | 2 => .ok (.ropOr f.x f.y)
  | _ => .ok (.ropXor f.x f.y)

/-- Format 4, WINSEL: `window_select` in `sub[1:0]`, the handler's tag code in the first operand. -/
def decodeWinsel (f : Frame) : Except DecodeError Instr :=
  match Tag.ofCode (f.x.extractLsb' 0 4).toNat with
  | none => .error .reservedTag
  | some h =>
    match (f.sel.extractLsb' 0 2).toNat with
    | 0 => .ok (.winsel0 h)
    | 1 => .ok (.winsel1 h)
    | 2 => .ok (.winsel2 h)
    | _ => .ok (.winsel3 h)

/-- Format 5, VOP: direction in `sub[4]`, `vop_mode` in `sub[3:0]`, decoded as R112. -/
def decodeVop (f : Frame) : Except DecodeError Instr :=
  let n := portWidth f.y
  let v := portValue f.y
  let off : BitVec 18 := f.x.setWidth 18
  let wr := f.sel.getLsbD 4
  if !f.sel.getLsbD 3 then
    .ok (if wr then .vopPassWr (f.sel.extractLsb' 0 3) n off v else .vopPassRd (f.sel.extractLsb' 0 3) n off)
  else if f.sel.getLsbD 1 then
    let m : BitVec 2 := f.sel.extractLsb' 2 1 ++ f.sel.extractLsb' 0 1
    .ok (if wr then .vopEgcWr m n off v else .vopEgcRd m n off)
  else if f.sel.getLsbD 2 then
    .ok (if wr then .vopTileMaskWr (f.sel.extractLsb' 0 1) n off v else .vopTileMaskRd (f.sel.extractLsb' 0 1) n off)
  else
    .ok (if wr then .vopTileCopyWr (f.sel.extractLsb' 0 1) n off v else .vopTileCopyRd (f.sel.extractLsb' 0 1) n off)

/-- Format 6, EGCROP: `egc_rop` in `sub[7:0]`. The row `EGCROP.PAT` has the parameter in its match and is absent when
the parameter is unset; `EGCROP.STUB` is the catch-all row (R105, R114, R294). -/
def decodeEgcrop (pat : Option Byte) (f : Frame) : Except DecodeError Instr :=
  let code : Byte := f.sel.extractLsb' 0 8
  let a : BitVec 15 := f.x.setWidth 15
  if code = 0xC0#8 then .ok (.egcropC0 a)
  else if code = 0xF0#8 then .ok (.egcropF0 a)
  else if code = 0xFC#8 then .ok (.egcropFC a)
  else if code = 0x0C#8 then .ok (.egcrop0C a)
  else if pat = some code then .ok (.egcropPat code a)
  else .ok (.egcropStub code a)

/-- Format 7, LSRC: `egc_lightsource` in `sub[1:0]`. -/
def decodeLsrc (f : Frame) : Except DecodeError Instr :=
  let a : BitVec 15 := f.x.setWidth 15
  let n := portWidth f.y
  let v := portValue f.y
  match (f.sel.extractLsb' 0 2).toNat with
  | 0 => .ok (.egcLs0 a n v)
  | 1 => .ok (.egcLs1 a n v)
  | 2 => .ok (.egcLs2 a n v)
  | _ => .ok (.egcLs3 a n v)

/-- Format 8, FGC: `egc_fgc` in `sub[1:0]`. -/
def decodeFgc (f : Frame) : Except DecodeError Instr :=
  match (f.sel.extractLsb' 0 2).toNat with
  | 0 => .ok .egcFgc0
  | 1 => .ok .egcFgc1
  | 2 => .ok .egcFgc2
  | _ => .ok .egcFgc3

/-- Format 9, REGLOAD: `egc_regload` in `sub[1:0]`. Value 3 matches two rows; it is decoded as the first of them with
both loads (R117, log entry 24). -/
def decodeRegload (f : Frame) : Except DecodeError Instr :=
  let a : BitVec 15 := f.x.setWidth 15
  let n := portWidth f.y
  if f.sel.getLsbD 0 then .ok (.egcRlRead (f.sel.getLsbD 1) a n)
  else if f.sel.getLsbD 1 then .ok (.egcRlWrite a n)
  else .ok .egcRlNone

/-- Format 10, REGION: direction in `sub[4]`, region code of R110 in `sub[2:0]`; codes 5 and 6 are unassigned. -/
def decodeRegion (f : Frame) : Except DecodeError Instr :=
  let n := portWidth f.y
  let v := portValue f.y
  let wr := f.sel.getLsbD 4
  match (f.sel.extractLsb' 0 3).toNat with
  | 0 => .ok (if wr then .pc98CharWr n f.x v else .pc98CharRd n f.x)
  | 1 => .ok (if wr then .pc98AttrWr n f.x v else .pc98AttrRd n f.x)
  | 2 => .ok (if wr then .pc98UnknownWr n f.x v else .pc98UnknownRd n f.x)
  | 3 => .ok (if wr then .pc98AbsentWr n f.x v else .pc98AbsentRd n f.x)
  | 4 => .ok (if wr then .pc98GraphicsWr n f.x v else .pc98GraphicsRd n f.x)
  | 7 => .ok (if wr then .pc98MswWr n f.x v else .pc98MswRd n f.x)
  | _ => .error (.unassignedSelector f.sel)

/-- Op bytes of R101 and R102, with their address and data words. Operand bytes that an operation does not use are
ignored (log entry 12). -/
def decodeOp (op : Byte) (x y : Word) : Except DecodeError Instr :=
  match op.toNat with
  | 0x00 => .ok (.rd8 x)
  | 0x01 => .ok (.rd16 x)
  | 0x02 => .ok (.rd32 x)
  | 0x04 => .ok (.wr8 x (y.setWidth 8))
  | 0x05 => .ok (.wr16 x (y.setWidth 16))
  | 0x06 => .ok (.wr32 x y)
  | 0x80 =>
    match CfgField.ofId x.toNat with
    | none => .error (.unassignedField x)
    | some fld => .ok (.cfg fld y)
  | 0x81 => .ok .dispatch
  | 0x82 => .ok .reset
  | 0x83 => .ok .egcReinit
  | 0x84 => if x.toNat < 4 then .ok (.tileLoad (planeOf x) (y.setWidth 16)) else .error (.unassignedPlane x)
  | _ => .error (.unassignedOp op)

/-- Format 12, SHIFT: the Shifter operation in `sub[2:0]`; codes 6 and 7 are unassigned. -/
def decodeShift (f : Frame) : Except DecodeError Instr :=
  match (f.sel.extractLsb' 0 3).toNat with
  | 0 => .ok .shReinit
  | 1 => .ok (.shIn8 (byteOf f.x 0) (byteOf f.x 1) (byteOf f.x 2) (byteOf f.x 3) (f.y.getLsbD 0))
  | 2 => .ok (.shIn16 (f.x.extractLsb' 0 16) (f.x.extractLsb' 16 16) (f.y.extractLsb' 0 16) (f.y.extractLsb' 16 16))
  | 3 => .ok (.shOut8 (f.x.getLsbD 0) (f.x.getLsbD 1))
  | 4 => .ok .shOut16
  | 5 => .ok .shDmask
  | _ => .error (.unassignedSelector f.sel)

/-- Format 13, DISP: the selected tag in `sub[3:0]`. -/
def decodeDisp (f : Frame) : Except DecodeError Instr :=
  match Tag.ofCode (f.sel.extractLsb' 0 4).toNat with
  | none => .error .reservedTag
  | some t => .ok (Instr.disp t)

/-- The instruction of a selector frame, by the format number `fmt[15:12]` (R105). `pat` is `EGC_ROP_PAT_CODE`. -/
def decodeFrame (pat : Option Byte) (f : Frame) : Except DecodeError Instr :=
  match (f.sel.extractLsb' 12 4).toNat with
  | 0 => decodeBus f
  | 1 => decodeWmode f
  | 2 => decodeRmode f
  | 3 => decodeRopsel f
  | 4 => decodeWinsel f
  | 5 => decodeVop f
  | 6 => decodeEgcrop pat f
  | 7 => decodeLsrc f
  | 8 => decodeFgc f
  | 9 => decodeRegload f
  | 10 => decodeRegion f
  | 11 => decodeOp (f.sel.extractLsb' 0 8) f.x f.y
  | 12 => decodeShift f
  | 13 => decodeDisp f
  | _ => .error (.unassignedSelector f.sel)

/-- The instruction of the ten bytes of a selector frame. -/
def decode (pat : Option Byte) (bs : List Byte) : Except DecodeError Instr :=
  match Frame.ofBytes bs with
  | .error e => .error e
  | .ok f => decodeFrame pat f

/-- The instruction of a 9-byte record: op byte, address, data (R101, R102). -/
def decodeRecord : List Byte → Except DecodeError Instr
  | [op, x0, x1, x2, x3, y0, y1, y2, y3] => decodeOp op (le32 x0 x1 x2 x3) (le32 y0 y1 y2 y3)
  | bs => .error (.wrongLength bs.length)

/-! ### Encoding -/

/-- The op byte, address and data of an instruction that has a record (R101, R102). -/
def encodeOp : Instr → Option (Byte × Word × Word)
  | .rd8 addr => some (0x00#8, addr, 0#32)
  | .rd16 addr => some (0x01#8, addr, 0#32)
  | .rd32 addr => some (0x02#8, addr, 0#32)
  | .wr8 addr v => some (0x04#8, addr, v.setWidth 32)
  | .wr16 addr v => some (0x05#8, addr, v.setWidth 32)
  | .wr32 addr v => some (0x06#8, addr, v)
  | .cfg fld v => some (0x80#8, BitVec.ofNat 32 fld.id, v)
  | .dispatch => some (0x81#8, 0#32, 0#32)
  | .reset => some (0x82#8, 0#32, 0#32)
  | .egcReinit => some (0x83#8, 0#32, 0#32)
  | .tileLoad p v => some (0x84#8, packPlane p, v.setWidth 32)
  | _ => none

/-- The selector word of a row with an op byte (format 11). -/
def envFrame (op : Byte) (x y : Word) : Frame := ⟨0xB0#8 ++ op, x, y⟩

/-- The selector word of a bus row (format 0). -/
def busFrame (t : Tag) (wr : Bool) (w : Width) (x y : Word) : Frame :=
  ⟨BitVec.ofNat 16 (0x100 * t.code + (if wr then 4 else 0) + w.code), x, y⟩

/-- The frame of an instruction (R105). -/
def encodeFrame : Instr → Frame
  | .rd8 addr => envFrame 0x00#8 addr 0#32
  | .rd16 addr => envFrame 0x01#8 addr 0#32
  | .rd32 addr => envFrame 0x02#8 addr 0#32
  | .wr8 addr v => envFrame 0x04#8 addr (v.setWidth 32)
  | .wr16 addr v => envFrame 0x05#8 addr (v.setWidth 32)
  | .wr32 addr v => envFrame 0x06#8 addr v
  | .cfg fld v => envFrame 0x80#8 (BitVec.ofNat 32 fld.id) v
  | .dispatch => envFrame 0x81#8 0#32 0#32
  | .reset => envFrame 0x82#8 0#32 0#32
  | .egcReinit => envFrame 0x83#8 0#32 0#32
  | .tileLoad p v => envFrame 0x84#8 (packPlane p) (v.setWidth 32)
  | .ropNone input mask => ⟨0x3000#16, input, mask⟩
  | .ropAnd input mask => ⟨0x3001#16, input, mask⟩
  | .ropOr input mask => ⟨0x3002#16, input, mask⟩
  | .ropXor input mask => ⟨0x3003#16, input, mask⟩
  | .wm0 val => ⟨0x1000#16, val.setWidth 32, 0#32⟩
  | .wm1 val => ⟨0x1001#16, val.setWidth 32, 0#32⟩
  | .wm2 val => ⟨0x1002#16, val.setWidth 32, 0#32⟩
  | .wm3 val => ⟨0x1003#16, val.setWidth 32, 0#32⟩
  | .wmUnsup mode val => ⟨0x10#8 ++ mode, val.setWidth 32, 0#32⟩
  | .rm0 idx raw plane => ⟨0x2000#16, idx, packPlane plane ||| packBit raw 2⟩
  | .rm1 idx raw plane => ⟨0x2001#16, idx, packPlane plane ||| packBit raw 2⟩
  | .unmappedRd w addr => busFrame .unmapped false w addr 0#32
  | .unmappedWr w addr data => busFrame .unmapped true w addr data
  | .unchainedRd w addr => busFrame .unchained false w addr 0#32
  | .unchainedWr w addr data => busFrame .unchained true w addr data
  | .chainedEgaRd w addr => busFrame .chainedEga false w addr 0#32
  | .chainedEgaWr w addr data => busFrame .chainedEga true w addr data
  | .chainedVgaRd w addr => busFrame .chainedVga false w addr 0#32
  | .chainedVgaWr w addr data => busFrame .chainedVga true w addr data
  | .chainedVgaSlowRd w addr => busFrame .chainedVgaSlow false w addr 0#32
  | .chainedVgaSlowWr w addr data => busFrame .chainedVgaSlow true w addr data
  | .chainedVgaEt4kRd w addr => busFrame .chainedVgaEt4k false w addr 0#32
  | .chainedVgaEt4kWr w addr data => busFrame .chainedVgaEt4k true w addr data
  | .chainedVgaEt4kSlowRd w addr => busFrame .chainedVgaEt4kSlow false w addr 0#32
  | .chainedVgaEt4kSlowWr w addr data => busFrame .chainedVgaEt4kSlow true w addr data
  | .linearRd w addr => busFrame .linear false w addr 0#32
  | .linearWr w addr data => busFrame .linear true w addr data
  | .pc98Rd w addr => busFrame .pc98 false w addr 0#32
  | .pc98Wr w addr data => busFrame .pc98 true w addr data
  | .textRd w addr => busFrame .text false w addr 0#32
  | .textWr w addr data => busFrame .text true w addr data
  | .cgaSnowTextRd w addr => busFrame .cgaSnowText false w addr 0#32
  | .cgaSnowTextWr w addr data => busFrame .cgaSnowText true w addr data
  | .herculesRd w addr => busFrame .hercules false w addr 0#32
  | .herculesWr w addr data => busFrame .hercules true w addr data
  | .tandyRd w addr => busFrame .tandy false w addr 0#32
  | .tandyWr w addr data => busFrame .tandy true w addr data
  | .pcjrRd w addr => busFrame .pcjr false w addr 0#32
  | .pcjrWr w addr data => busFrame .pcjr true w addr data
  | .amstradRd w addr => busFrame .amstrad false w addr 0#32
  | .amstradWr w addr data => busFrame .amstrad true w addr data
  | .pc98MswRd n addr => ⟨0xA007#16, addr, packPort n 0#16⟩
  | .pc98MswWr n addr v => ⟨0xA017#16, addr, packPort n v⟩
  | .pc98CharRd n addr => ⟨0xA000#16, addr, packPort n 0#16⟩
  | .pc98CharWr n addr v => ⟨0xA010#16, addr, packPort n v⟩
  | .pc98AttrRd n addr => ⟨0xA001#16, addr, packPort n 0#16⟩
  | .pc98AttrWr n addr v => ⟨0xA011#16, addr, packPort n v⟩
  | .pc98UnknownRd n addr => ⟨0xA002#16, addr, packPort n 0#16⟩
  | .pc98UnknownWr n addr v => ⟨0xA012#16, addr, packPort n v⟩
  | .pc98AbsentRd n addr => ⟨0xA003#16, addr, packPort n 0#16⟩
  | .pc98AbsentWr n addr v => ⟨0xA013#16, addr, packPort n v⟩
  | .pc98GraphicsRd n addr => ⟨0xA004#16, addr, packPort n 0#16⟩
  | .pc98GraphicsWr n addr v => ⟨0xA014#16, addr, packPort n v⟩
  | .vopPassRd mode n off => ⟨0x500#12 ++ (0#1 ++ mode), off.setWidth 32, packPort n 0#16⟩
  | .vopTileCopyRd mode n off => ⟨0x500#12 ++ (0b100#3 ++ mode), off.setWidth 32, packPort n 0#16⟩
  | .vopTileMaskRd mode n off => ⟨0x500#12 ++ (0b110#3 ++ mode), off.setWidth 32, packPort n 0#16⟩
  | .vopEgcRd mode n off =>
    ⟨0x500#12 ++ ((1#1 ++ mode.extractLsb' 1 1) ++ (1#1 ++ mode.extractLsb' 0 1)), off.setWidth 32, packPort n 0#16⟩
  | .vopPassWr mode n off v => ⟨0x501#12 ++ (0#1 ++ mode), off.setWidth 32, packPort n v⟩
  | .vopTileCopyWr mode n off v => ⟨0x501#12 ++ (0b100#3 ++ mode), off.setWidth 32, packPort n v⟩
  | .vopTileMaskWr mode n off v => ⟨0x501#12 ++ (0b110#3 ++ mode), off.setWidth 32, packPort n v⟩
  | .vopEgcWr mode n off v =>
    ⟨0x501#12 ++ ((1#1 ++ mode.extractLsb' 1 1) ++ (1#1 ++ mode.extractLsb' 0 1)), off.setWidth 32, packPort n v⟩
  | .shReinit => ⟨0xC000#16, 0#32, 0#32⟩
  | .shIn8 q0 q1 q2 q3 odd => ⟨0xC001#16, le32 q0 q1 q2 q3, packBit odd 0⟩
  | .shIn16 q0 q1 q2 q3 => ⟨0xC002#16, q1 ++ q0, q3 ++ q2⟩
  | .shOut8 lane rec => ⟨0xC003#16, packBit lane 0 ||| packBit rec 1, 0#32⟩
  | .shOut16 => ⟨0xC004#16, 0#32, 0#32⟩
  | .shDmask => ⟨0xC005#16, 0#32, 0#32⟩
  | .egcLs0 a n val => ⟨0x7000#16, a.setWidth 32, packPort n val⟩
  | .egcLs1 a n val => ⟨0x7001#16, a.setWidth 32, packPort n val⟩
  | .egcLs2 a n val => ⟨0x7002#16, a.setWidth 32, packPort n val⟩
  | .egcLs3 a n val => ⟨0x7003#16, a.setWidth 32, packPort n val⟩
  | .egcFgc0 => ⟨0x8000#16, 0#32, 0#32⟩
  | .egcFgc1 => ⟨0x8001#16, 0#32, 0#32⟩
  | .egcFgc2 => ⟨0x8002#16, 0#32, 0#32⟩
  | .egcFgc3 => ⟨0x8003#16, 0#32, 0#32⟩
  | .egcRlNone => ⟨0x9000#16, 0#32, 0#32⟩
  | .egcRlRead both a n => ⟨if both then 0x9003#16 else 0x9001#16, a.setWidth 32, packPort n 0#16⟩
  | .egcRlWrite a n => ⟨0x9002#16, a.setWidth 32, packPort n 0#16⟩
  | .egcropC0 a => ⟨0x60C0#16, a.setWidth 32, 0#32⟩
  | .egcropF0 a => ⟨0x60F0#16, a.setWidth 32, 0#32⟩
  | .egcropFC a => ⟨0x60FC#16, a.setWidth 32, 0#32⟩
  | .egcrop0C a => ⟨0x600C#16, a.setWidth 32, 0#32⟩
  | .egcropPat code a => ⟨0x60#8 ++ code, a.setWidth 32, 0#32⟩
  | .egcropStub code a => ⟨0x60#8 ++ code, a.setWidth 32, 0#32⟩
  | .dispUnmapped => ⟨0xD000#16, 0#32, 0#32⟩
  | .dispUnchained => ⟨0xD001#16, 0#32, 0#32⟩
  | .dispChainedEga => ⟨0xD002#16, 0#32, 0#32⟩
  | .dispChainedVga => ⟨0xD003#16, 0#32, 0#32⟩
  | .dispChainedVgaSlow => ⟨0xD004#16, 0#32, 0#32⟩
  | .dispChainedVgaEt4k => ⟨0xD005#16, 0#32, 0#32⟩
  | .dispChainedVgaEt4kSlow => ⟨0xD006#16, 0#32, 0#32⟩
  | .dispLinear => ⟨0xD007#16, 0#32, 0#32⟩
  | .dispPc98 => ⟨0xD008#16, 0#32, 0#32⟩
  | .dispText => ⟨0xD009#16, 0#32, 0#32⟩
  | .dispCgaSnowText => ⟨0xD00A#16, 0#32, 0#32⟩
  | .dispHercules => ⟨0xD00B#16, 0#32, 0#32⟩
  | .dispTandy => ⟨0xD00C#16, 0#32, 0#32⟩
  | .dispPcjr => ⟨0xD00D#16, 0#32, 0#32⟩
  | .dispAmstrad => ⟨0xD00E#16, 0#32, 0#32⟩
  | .winsel0 h => ⟨0x4000#16, BitVec.ofNat 32 h.code, 0#32⟩
  | .winsel1 h => ⟨0x4001#16, BitVec.ofNat 32 h.code, 0#32⟩
  | .winsel2 h => ⟨0x4002#16, BitVec.ofNat 32 h.code, 0#32⟩
  | .winsel3 h => ⟨0x4003#16, BitVec.ofNat 32 h.code, 0#32⟩

/-- The ten bytes of an instruction's selector frame. -/
def encode (i : Instr) : List Byte := (encodeFrame i).bytes

/-- The nine bytes of an instruction's record, where it has one (R101, R102). -/
def encodeRecord (i : Instr) : Option (List Byte) :=
  (encodeOp i).map fun r => r.1 :: (bytes32 r.2.1 ++ bytes32 r.2.2)

/-! ### The host's numbering -/

/-- The ten frame bytes of an instruction whose bits are `w`, bit 0 the least significant bit of the selector word;
bits at `nbits` and above are 0. -/
def tableBytes (nbits w : Nat) : List Byte :=
  (List.range 10).map fun k => BitVec.ofNat 8 ((w % 2 ^ nbits) >>> (8 * k))

/-- The instruction the decoder reads from a row's word, under the reset instance's `EGC_ROP_PAT_CODE`. -/
def decodeTableWord (nbits w : Nat) : Option Instr :=
  (decode Config.platform.patCode (tableBytes nbits w)).toOption

end Sys2Proof
end

