-- ==== Sys2Proof/Machine/State.lean ====
section
/-! DEFINITION. The state of the block as plain data (10_state.md), the reasons a step stops, and the state after reset. -/

namespace Sys2Proof.Machine

/-! ### Memories -/

/-- A byte memory as (address, byte) pairs in one canonical form: addresses strictly rising, no entry equal to what an
unlisted address reads as. Used for VRAM (R21) and for the Shifter's buffer (R28). -/
abbrev Memory := List Host.Cell

/-- What an unlisted byte reads as: 0x00, the value R46 and R350 give every byte of VRAM at reset. For the Shifter's
buffer it is the model's choice (log entry 6). -/
def Memory.unlisted : Byte := 0x00#8

/-- The canonical form: strictly rising addresses, no listed byte equal to `Memory.unlisted`. -/
def Memory.wf : Memory → Bool
  | [] => true
  | [(_, v)] => v != Memory.unlisted
  | (a, v) :: (b, w) :: m => v != Memory.unlisted && decide (a < b) && Memory.wf ((b, w) :: m)

/-! ### Quads -/

/-- Four 16-bit words, one per plane: the unit the EGC works on (R18, R24). -/
structure Quad where
  p0 : Half
  p1 : Half
  p2 : Half
  p3 : Half
  deriving DecidableEq, Repr

/-- The four planes, in ascending order (R12). -/
def planes : List Plane := [0, 1, 2, 3]

/-! ### External configuration (R34 to R41) -/

/-- `display_mode` (R38). -/
inductive DisplayMode where
  | text
  | cga2
  | cga4
  | ega
  | vga8
  | lin15
  | lin16
  | lin24
  | lin32
  | pc98
  | other
  deriving DecidableEq, Repr

/-- Planar Config, the narrow fields (R34, R35). -/
structure PlanarConfig where
  writeMode : Byte
  readMode : Bool
  rasterOp : BitVec 2
  bitMask : Byte
  mapMask : BitVec 4
  dataRotate : BitVec 3
  setReset : BitVec 4
  enableSetReset : BitVec 4
  colorCompare : BitVec 4
  colorDontCare : BitVec 4
  readMapSelect : BitVec 2
  oddEven : Bool
  deriving DecidableEq, Repr

/-- The inputs only the dispatcher reads: chaining flags (R34), Bank Window (R36), Address Window (R37), display mode
(R38). -/
structure DispatchConfig where
  chained : Bool
  compatibleChain4 : Bool
  bankRead : Nat
  bankWrite : Nat
  bankSize : Nat
  windowSelect : BitVec 2
  displayMode : DisplayMode
  deriving DecidableEq, Repr

/-- The PC-98 operation registers (R39). -/
structure Pc98Config where
  vopMode : BitVec 4
  vopAccess : Bool
  analog16 : Bool
  chEn : BitVec 4
  msw : Vector Byte 8
  deriving DecidableEq, Repr

/-- The EGC registers (R40, R41). -/
structure EgcConfig where
  access : BitVec 4
  fgc : BitVec 2
  leadPlane : BitVec 2
  compareLead : Bool
  lightsource : BitVec 2
  shiftinput : Bool
  regload : BitVec 2
  rop : Byte
  mask : Half
  fgcm : Quad
  bgcm : Quad
  shiftDescend : Bool
  shiftLength : BitVec 12
  shiftSrcbit : BitVec 4
  shiftDstbit : BitVec 4
  deriving DecidableEq, Repr

/-- The externally owned configuration, written only by the environment (R9, R20). -/
structure ExtConfig where
  planar : PlanarConfig
  disp : DispatchConfig
  pc98 : Pc98Config
  egc : EgcConfig
  deriving DecidableEq, Repr

/-! ### Owned state -/

/-- The Shifter's registers (R27); its buffer is a field of the State of its own. -/
structure Shifter where
  /-- direction latched at reinit: `true` is descending -/
  dec : Bool
  remain : Nat
  srcbit : Nat
  dstbit : Nat
  oSrcbit : Nat
  oDstbit : Nat
  shl : Nat
  shr : Nat
  load : Nat
  bufi : Nat
  bufo : Nat
  deriving DecidableEq, Repr

/-- The three kinds of once-only diagnostics (R29). -/
inductive LogKind where
  | writeMode
  | vramOpMode
  | egcRop
  deriving DecidableEq, Repr

/-- One diagnostic already issued (R29). -/
structure LogMark where
  kind : LogKind
  value : Byte
  deriving DecidableEq, Repr

/-- A run of consecutive 4 KB pages bound to one handler tag. -/
structure PageRange where
  first : Nat
  count : Nat
  tag : Tag
  deriving DecidableEq, Repr

/-- The Binding (R30). `bound` is read from its head: the first range that holds a page gives its tag, and a page in
no range is `UNMAPPED`. -/
structure Binding where
  bound : List PageRange
  pageBase : Word
  pageMask : Word
  bankReadFull : Word
  bankWriteFull : Word
  deriving DecidableEq, Repr

/-- MODEL's own field type (log entry 3): what the last operation returned. -/
inductive Out where
  | none
  | byte (v : Byte)
  | half (v : Half)
  | word (v : Word)
  /-- a quad: a ROP entry's result or a pattern term -/
  | quad (q : Quad)
  /-- `EgcData` and `MaskEf` of a light source (R31) -/
  | egc (data : Quad) (maskEf : Half)
  deriving DecidableEq, Repr

/-- MODEL's own field type (log entry 1): one entry of the queue of transactions and environment operations. -/
inductive QueueEntry where
  /-- a 9-byte record (R101, R102) -/
  | record (bytes : List Byte)
  /-- a 10-byte selector frame (R105, log entry 2) -/
  | frame (bytes : List Byte)
  deriving DecidableEq, Repr

/-- The whole state: the block's own registers and memories, the external configuration, the parameters of the
instance, and the model's queue and output port. -/
structure State where
  /-- parameters (R8); nothing writes them -/
  plat : Platform
  /-- external configuration (R34 to R41) -/
  cfg : ExtConfig
  /-- VRAM (R21), keyed by byte offset -/
  vram : Memory
  /-- Latch (R22) -/
  latch : Word
  /-- Tile[0..3] (R23) -/
  tile : Quad
  /-- EgcSrc[0..3] (R24) -/
  egcSrc : Quad
  /-- EgcLast[0..3] (R25) -/
  egcLast : Quad
  /-- SrcMask (R26): bits 7:0 the even lane, bits 15:8 the odd lane -/
  srcMask : Half
  /-- Shifter registers (R27) -/
  sh : Shifter
  /-- Shifter.buf[0..511] (R28) -/
  buf : Memory
  /-- Logged (R29), without repeats, in the order of issue -/
  logged : List LogMark
  /-- the Binding (R30) -/
  binding : Binding
  /-- CyclesLeft of the CPU layer (R370) -/
  cyclesLeft : Int
  /-- MODEL's own: the value the last operation returned -/
  out : Out
  /-- MODEL's own: the entries not yet served, oldest first -/
  input : List QueueEntry
  deriving DecidableEq, Repr

/-! ### One update per field: every meaning changes the state through these. -/

/-- `s` with the field `cfg` replaced. -/
def State.setCfg (s : State) (x : ExtConfig) : State := { s with cfg := x }

/-- `s` with the field `vram` replaced. -/
def State.setVram (s : State) (x : Memory) : State := { s with vram := x }

/-- `s` with the field `latch` replaced. -/
def State.setLatch (s : State) (x : Word) : State := { s with latch := x }

/-- `s` with the field `tile` replaced. -/
def State.setTile (s : State) (x : Quad) : State := { s with tile := x }

/-- `s` with the field `egcSrc` replaced. -/
def State.setEgcSrc (s : State) (x : Quad) : State := { s with egcSrc := x }

/-- `s` with the field `egcLast` replaced. -/
def State.setEgcLast (s : State) (x : Quad) : State := { s with egcLast := x }

/-- `s` with the field `srcMask` replaced. -/
def State.setSrcMask (s : State) (x : Half) : State := { s with srcMask := x }

/-- `s` with the field `sh` replaced. -/
def State.setSh (s : State) (x : Shifter) : State := { s with sh := x }

/-- `s` with the field `buf` replaced. -/
def State.setBuf (s : State) (x : Memory) : State := { s with buf := x }

/-- `s` with the field `logged` replaced. -/
def State.setLogged (s : State) (x : List LogMark) : State := { s with logged := x }

/-- `s` with the field `binding` replaced. -/
def State.setBinding (s : State) (x : Binding) : State := { s with binding := x }

/-- `s` with the field `cyclesLeft` replaced. -/
def State.setCyclesLeft (s : State) (x : Int) : State := { s with cyclesLeft := x }

/-- `s` with the field `out` replaced. -/
def State.setOut (s : State) (x : Out) : State := { s with out := x }

/-- `s` with the field `input` replaced. -/
def State.setInput (s : State) (x : List QueueEntry) : State := { s with input := x }

/-! ### The reasons a step stops -/

/-- Faults. -/
inductive Fault where
  /-- `ContractViolation(PC98_ALIGN)` (R328): raised by a PC-98 decoder operation entered directly with width 2 at an
  odd address. The source calls the behaviour undefined. Safe: the model stops, and no state after it is claimed. -/
  | contractViolationPc98Align
  deriving DecidableEq, Repr

/-- Refusals. -/
inductive Refusal where
  /-- An instruction that has no meaning yet, by its mnemonic: raised by `exec` only. Safe. -/
  | notModelled (mnemonic : String)
  /-- `Refuse(UNMAPPED)` (R83, R329): raised by an access to an unmapped page; the value belongs to the platform. Safe. -/
  | unmapped
  /-- `Refuse(LEGACY_HANDLER)` (R178, R329): raised by an access served by a legacy handler, which the source gives no
  behaviour. Safe. -/
  | legacyHandler
  /-- `Refuse(BAD_RECORD)` (R102, R329): raised by `step` on a queue entry that the packaging does not assign. Safe. -/
  | badRecord (why : DecodeError)
  deriving DecidableEq, Repr

/-! ### Reset -/

/-- The four words of a quad all zero. -/
def Quad.zero : Quad := ⟨0#16, 0#16, 0#16, 0#16⟩

/-- The configuration present at reset: R46 makes it an input of the model; these are DESIGN CHOICE values, those that
95_test_vectors.md uses (log entry 5). -/
def ExtConfig.reset : ExtConfig where
  planar :=
    { writeMode := 0#8, readMode := false, rasterOp := 0#2, bitMask := 0xFF#8, mapMask := 0xF#4, dataRotate := 0#3,
      setReset := 0#4, enableSetReset := 0#4, colorCompare := 0#4, colorDontCare := 0#4, readMapSelect := 0#2,
      oddEven := false }
  disp :=
    { chained := false, compatibleChain4 := false, bankRead := 0, bankWrite := 0, bankSize := 0x10000,
      windowSelect := 1#2, displayMode := .ega }
  pc98 :=
    { vopMode := 0#4, vopAccess := false, analog16 := false, chEn := 0xF#4, msw := #v[0, 0, 0, 0, 0, 0, 0, 0] }
  egc :=
    { access := 0#4, fgc := 0#2, leadPlane := 0#2, compareLead := false, lightsource := 0#2, shiftinput := false,
      regload := 0#2, rop := 0xF0#8, mask := 0xFFFF#16, fgcm := Quad.zero, bgcm := Quad.zero, shiftDescend := false,
      shiftLength := 15#12, shiftSrcbit := 0#4, shiftDstbit := 0#4 }

/-- A machine that has been given parameters and a configuration and nothing else: every register at the value log
entry 6 names, PageBase and PageMask among them, nothing bound. The RESET operation run on it gives the state after set-up (R351). -/
def State.blank (p : Platform) (c : ExtConfig) : State where
  plat := p
  cfg := c
  vram := []
  latch := 0#32
  tile := Quad.zero
  egcSrc := Quad.zero
  egcLast := Quad.zero
  srcMask := 0#16
  sh := { dec := false, remain := 0, srcbit := 0, dstbit := 0, oSrcbit := 0, oDstbit := 0, shl := 0, shr := 0,
          load := 0, bufi := 0, bufo := 0 }
  buf := []
  logged := []
  binding := { bound := [], pageBase := 0#32, pageMask := 0#32, bankReadFull := 0#32, bankWriteFull := 0#32 }
  cyclesLeft := 0
  out := .none
  input := []

/-- The machine right after reset (R46, R350): VRAM all 0x00, the Shifter as `reinit` leaves it and the Binding as
`Dispatch` computes it from the reset configuration, `Logged` empty. -/
def State.reset : State :=
  { State.blank Config.platform ExtConfig.reset with
    sh := { dec := false, remain := 16, srcbit := 0, dstbit := 0, oSrcbit := 0, oDstbit := 0, shl := 0, shr := 0,
            load := 0, bufi := 0, bufo := 0 }
    binding :=
      { bound := [⟨0xA0, 16, .unchained⟩, ⟨0xA0, 32, .unmapped⟩, ⟨0xB0, 8, .unmapped⟩, ⟨0xB8, 8, .unmapped⟩]
        pageBase := 0xA0000#32, pageMask := 0xFFFF#32, bankReadFull := 0#32, bankWriteFull := 0#32 } }

end Sys2Proof.Machine
end

