-- ==== Sys2Proof/Machine/Operands.lean ====
section
/-! DEFINITION. Operand forms: expansion functions and lanes (R12, R13, R119), the expanded configuration fields (R35),
the EGC's byte lanes (R281), the PC-98 address forms (R84, R85, R110, R213, R223). -/

namespace Sys2Proof.Machine

/-! ### Planar operands (R12, R13, R35) -/

/-- `lane(w, p)`: the byte of plane `p` in a planar word (R12). -/
def lane (w : Word) (p : Plane) : Byte := w.extractLsb' (8 * p.val) 8

/-- `Expand(b)`: the planar word with every lane equal to `b` (R13). -/
def expand (b : Byte) : Word := (b ++ b) ++ (b ++ b)

/-- A lane all ones or all zeros. -/
def fillLane (b : Bool) : Byte := if b then 0xFF#8 else 0x00#8

/-- `Fill(n)`: lane `p` is 0xFF where bit `p` of `n` is 1, else 0x00 (R13). -/
def fill (n : BitVec 4) : Word :=
  (fillLane (n.getLsbD 3) ++ fillLane (n.getLsbD 2)) ++ (fillLane (n.getLsbD 1) ++ fillLane (n.getLsbD 0))

/-- `ror8(v, n)`, a byte rotated right (R13, R141). -/
def ror8 (v : Byte) (n : BitVec 3) : Byte := (v >>> n.toNat) ||| (v <<< (8 - n.toNat))

/-- `full_bit_mask = Expand(bit_mask)` (R35). -/
def PlanarConfig.fullBitMask (c : PlanarConfig) : Word := expand c.bitMask

/-- `full_map_mask = Fill(map_mask)` (R35). -/
def PlanarConfig.fullMapMask (c : PlanarConfig) : Word := fill c.mapMask

/-- `full_set_reset = Fill(set_reset)` (R35). -/
def PlanarConfig.fullSetReset (c : PlanarConfig) : Word := fill c.setReset

/-- `full_enable_set_reset = Fill(enable_set_reset)` (R35). -/
def PlanarConfig.fullEnableSetReset (c : PlanarConfig) : Word := fill c.enableSetReset

/-- The planar word with 0xFF in the lane of one plane: `0xFF << (8 * p)` (R167, R171). -/
def laneMask (p : Plane) : Word := 0xFF#32 <<< (8 * p.val)

/-- The plane a flat byte address names under chain-4, `a & 3` (R160, R172). -/
def chainPlane (a : Nat) : Plane := ⟨a % 4, Nat.mod_lt _ (by decide)⟩

/-- Number of bytes of a bus transaction. -/
def widthBytes : Width → Nat
  | .byte => 1
  | .word => 2
  | .dword => 4

/-- The value of a read as the output port shows it: as wide as the transaction. -/
def Out.ofWidth (w : Width) (v : Word) : Out :=
  match w with
  | .byte => .byte (v.setWidth 8)
  | .word => .half (v.setWidth 16)
  | .dword => .word v

/-! ### Quads and lanes of the EGC (R18, R281) -/

/-- The word of plane `p`. -/
def Quad.get (q : Quad) (p : Plane) : Half :=
  match p with
  | 0 => q.p0
  | 1 => q.p1
  | 2 => q.p2
  | 3 => q.p3

/-- The quad whose word of plane `p` is `f p`. -/
def Quad.ofFn (f : Plane → Half) : Quad := ⟨f 0, f 1, f 2, f 3⟩

/-- The quad with the same word in all four planes. -/
def Quad.const (v : Half) : Quad := ⟨v, v, v, v⟩

/-- Byte lane of a 16-bit word: `false` is lane 0 (bits 7:0), `true` is lane 1 (bits 15:8) (R251). -/
def getLane (x : Half) (ln : Bool) : Byte := if ln then x.extractLsb' 8 8 else x.extractLsb' 0 8

/-- A 16-bit word with one byte lane replaced. -/
def setLane (x : Half) (ln : Bool) (b : Byte) : Half :=
  if ln then b ++ x.extractLsb' 0 8 else x.extractLsb' 8 8 ++ b

/-- `sel(x)` of R281: the whole word for `n = 2`, lane `ln` for `n = 1` (zero-extended). -/
def sel (n : PortWidth) (ln : Bool) (x : Half) : Half :=
  match n with
  | .word => x
  | .byte => (getLane x ln).setWidth 16

/-- `x.sel <- v` of R281: the same part of the register written, the rest kept. -/
def putSel (n : PortWidth) (ln : Bool) (x v : Half) : Half :=
  match n with
  | .word => v
  | .byte => setLane x ln (v.setWidth 8)

/-- `x.sel <- v` on every plane of a quad. -/
def Quad.putSel (n : PortWidth) (ln : Bool) (q v : Quad) : Quad :=
  Quad.ofFn fun p => Machine.putSel n ln (q.get p) (v.get p)

/-- The CPU value as the EGC's light source: as it is for a word, replicated into both lanes for a byte (R119, R284). -/
def cpuData (n : PortWidth) (val : Half) : Half :=
  match n with
  | .word => val
  | .byte => val.extractLsb' 0 8 ++ val.extractLsb' 0 8

/-- A value cut to the access's width (a byte access has an 8-bit value, R11). -/
def cutTo (n : PortWidth) (v : Half) : Half :=
  match n with
  | .word => v
  | .byte => (v.extractLsb' 0 8).setWidth 16

/-- The value of a decoder access as the output port shows it. -/
def Out.ofPort (n : PortWidth) (v : Half) : Out :=
  match n with
  | .byte => .byte (v.setWidth 8)
  | .word => .half v

/-- `egc_fgcm`, `egc_bgcm` of a 4-bit colour: 0xFFFF in each plane whose bit is 1 (R41). -/
def colourQuad (c : BitVec 4) : Quad :=
  Quad.ofFn fun p => if c.getLsbD p.val then 0xFFFF#16 else 0x0000#16

/-! ### PC-98 addresses (R84, R85, R110, R213, R223) -/

/-- The regions of the PC-98 layout (R110). -/
inductive Region where
  | msw
  | char
  | attr
  | unknown
  | absent
  | graphics
  deriving DecidableEq, Repr

/-- The region offset of a decoder address: the overlay folds to 0x20000, the main window to its low 17 bits (R213). -/
def fold (addr : Word) : Nat :=
  if 0xE0000 ≤ addr.toNat then addr.toNat % 0x8000 + 0x20000 else addr.toNat % 0x20000

/-- The region of a decoder address: the MSW test first, then the region offset's bits above 12 (R110, R212). -/
def regionOf (addr : Word) : Region :=
  if addr &&& 0xFFFFFFE0#32 = 0xA3FE0#32 then .msw
  else
    match fold addr / 0x2000 with
    | 0 => .char
    | 1 => .attr
    | 2 => .unknown
    | 3 => .absent
    | _ => .graphics

/-- The MSW register of an address, `(addr >> 2) & 7` (R111). -/
def mswIndex (addr : Word) : Fin 8 := ⟨addr.toNat / 4 % 8, Nat.mod_lt _ (by decide)⟩

/-- The in-plane offset `a = off & 0x7FFF` (R223). -/
def inPlane (off : Nat) : Nat := off % 0x8000

/-- `PLANE_OFF[p]`: 0x08000, 0x10000, 0x18000, 0x20000 (R85). -/
def planeOff (p : Plane) : Nat := 0x8000 * (p.val + 1)

/-- A width-2 access at an odd address (R74, R210). -/
def misaligned (n : PortWidth) (x : Nat) : Bool := n == .word && decide (x % 2 = 1)

/-- The byte lane of an in-plane offset, `ln = a & 1` (R281). -/
def laneOf (a : Nat) : Bool := decide (a % 2 = 1)

end Sys2Proof.Machine
end

