-- ==== Sys2Proof/Machine/Ops.lean ====
section
/-! DEFINITION. Operations over the memories and registers: canonical byte memories, the VRAM primitives (R14), the
Latch load (R152), address translation (R87), the access-delay debit (R370), the decomposition of wide accesses (R75,
R76). The block takes no exception and returns from none (R320, R323), so no operation for either stands here. -/

namespace Sys2Proof.Machine

/-! ### Canonical memories -/

/-- One byte of a memory: what the list says, `Memory.unlisted` where it says nothing. -/
def Memory.read : Memory → Nat → Byte
  | [], _ => Memory.unlisted
  | (a, v) :: m, x => if a = x then v else Memory.read m x

/-- One byte written, the canonical form kept: writing `Memory.unlisted` removes the entry. -/
def Memory.write : Memory → Nat → Byte → Memory
  | [], x, v => if v = Memory.unlisted then [] else [(x, v)]
  | (a, w) :: m, x, v =>
    if x < a then (if v = Memory.unlisted then (a, w) :: m else (x, v) :: (a, w) :: m)
    else if x = a then (if v = Memory.unlisted then m else (x, v) :: m)
    else (a, w) :: Memory.write m x v

/-! ### VRAM (R14): every byte offset is wrapped on its own with `WRAP = VMEMSIZE - 1`, a power of two less one -/

/-- `VMEMSIZE` (R21). -/
def Platform.vmemSize (p : Platform) : Nat := 2 ^ p.vmemBits

/-- The byte offset `o & WRAP`. -/
def State.wrap (s : State) (o : Nat) : Nat := o % s.plat.vmemSize

/-- The planar index `i & WRAP4`, `WRAP4 = (VMEMSIZE >> 2) - 1` (R8). -/
def State.wrap4 (s : State) (i : Nat) : Nat := i % (s.plat.vmemSize / 4)

/-- `VRead(o, 1)`. -/
def State.vbyte (s : State) (o : Nat) : Byte := s.vram.read (s.wrap o)

/-- `VRead(o, 2)`. -/
def State.vhalf (s : State) (o : Nat) : Half := le16 (s.vbyte o) (s.vbyte (o + 1))

/-- `VRead(o, 4)`. -/
def State.vword (s : State) (o : Nat) : Word :=
  le32 (s.vbyte o) (s.vbyte (o + 1)) (s.vbyte (o + 2)) (s.vbyte (o + 3))

/-- `VWrite(o, 1, v)`. -/
def State.putByte (s : State) (o : Nat) (v : Byte) : State := s.setVram (s.vram.write (s.wrap o) v)

/-- `VWrite(o, 2, v)`. -/
def State.putHalf (s : State) (o : Nat) (v : Half) : State :=
  (s.putByte o (v.extractLsb' 0 8)).putByte (o + 1) (v.extractLsb' 8 8)

/-- `VWrite(o, 4, v)`. -/
def State.putWord (s : State) (o : Nat) (v : Word) : State :=
  (((s.putByte o (byteOf v 0)).putByte (o + 1) (byteOf v 1)).putByte (o + 2) (byteOf v 2)).putByte (o + 3) (byteOf v 3)

/-- `VRead(o, n)` for a bus width, zero-extended. -/
def State.vread (s : State) (o : Nat) : Width → Word
  | .byte => (s.vbyte o).setWidth 32
  | .word => (s.vhalf o).setWidth 32
  | .dword => s.vword o

/-- `VWrite(o, n, v)` for a bus width. -/
def State.vwrite (s : State) (o : Nat) (w : Width) (v : Word) : State :=
  match w with
  | .byte => s.putByte o (v.setWidth 8)
  | .word => s.putHalf o (v.setWidth 16)
  | .dword => s.putWord o v

/-- `VRead(o, n)` for a decoder width, zero-extended. -/
def State.pread (s : State) (o : Nat) : PortWidth → Half
  | .byte => (s.vbyte o).setWidth 16
  | .word => s.vhalf o

/-- `VWrite(o, n, v)` for a decoder width. -/
def State.pwrite (s : State) (o : Nat) (n : PortWidth) (v : Half) : State :=
  match n with
  | .byte => s.putByte o (v.setWidth 8)
  | .word => s.putHalf o v

/-- The byte offset of planar index `i`: `4 * (i & WRAP4)` (R14). -/
def State.planarOff (s : State) (i : Nat) : Nat := 4 * s.wrap4 i

/-- `PRead(i)`: the planar word at planar index `i` (R14). -/
def State.planarRead (s : State) (i : Nat) : Word := s.vword (s.planarOff i)

/-- `PWrite(i, w)` (R14). -/
def State.planarStore (s : State) (i : Nat) (w : Word) : State := s.putWord (s.planarOff i) w

/-- `LatchLoad(idx)` (R152). -/
def State.latchLoad (s : State) (idx : Nat) : State := s.setLatch (s.planarRead idx)

/-! ### The access-delay debit (R370, log entry 13) -/

/-- `Debit(read)`. -/
def State.debitRead (s : State) : State := s.setCyclesLeft (s.cyclesLeft - s.plat.readDelay)

/-- `Debit(write)`. -/
def State.debitWrite (s : State) : State := s.setCyclesLeft (s.cyclesLeft - s.plat.writeDelay)

/-! ### Address translation (R87, R176) -/

/-- `t = (addr & PageMask) + BankReadFull`, in 32 bits. -/
def State.busRead (s : State) (addr : Word) : Word := (addr &&& s.binding.pageMask) + s.binding.bankReadFull

/-- `t = (addr & PageMask) + BankWriteFull`, in 32 bits. -/
def State.busWrite (s : State) (addr : Word) : Word := (addr &&& s.binding.pageMask) + s.binding.bankWriteFull

/-- The flat byte address of a read, `a = t & WRAP`. -/
def State.flatRead (s : State) (addr : Word) : Nat := s.wrap (s.busRead addr).toNat

/-- The flat byte address of a write. -/
def State.flatWrite (s : State) (addr : Word) : Nat := s.wrap (s.busWrite addr).toNat

/-- The planar index of a read through `UNCHAINED`, `a = t & WRAP4`. -/
def State.indexRead (s : State) (addr : Word) : Nat := s.wrap4 (s.busRead addr).toNat

/-- The planar index of a write through `UNCHAINED`. -/
def State.indexWrite (s : State) (addr : Word) : Nat := s.wrap4 (s.busWrite addr).toNat

/-! ### Wide accesses -/

/-- `n` byte reads at consecutive addresses, low address first, each a complete byte operation; the results assembled
little-endian (R75). -/
def readBytes (f : Word → State → Byte × State) : Nat → Word → State → Word × State
  | 0, _, s => (0#32, s)
  | n + 1, addr, s =>
    let r := f addr s
    let q := readBytes f n (addr + 1) r.2
    ((q.1 <<< 8) ||| r.1.setWidth 32, q.2)

/-- `n` byte writes at consecutive addresses, low address first, byte `k` carrying `data[8k+7:8k]` (R75). -/
def writeBytes (f : Word → Byte → State → State) : Nat → Word → Word → State → State
  | 0, _, _, s => s
  | n + 1, addr, data, s => writeBytes f n (addr + 1) (data >>> 8) (f addr (data.setWidth 8) s)

/-- A read of a byte-linear handler: `flat` translates an address, `place` gives the VRAM offset of a flat address. One
piece where the translated address is a multiple of the width, else byte by byte (R76). -/
def linearRead (flat : Word → Nat) (place : Nat → Nat) (w : Width) (addr : Word) (s : State) : Word :=
  if flat addr % widthBytes w = 0 then s.vread (place (flat addr)) w
  else (readBytes (fun x t => (t.vbyte (place (flat x)), t)) (widthBytes w) addr s).1

/-- A write of a byte-linear handler, decomposed as `linearRead` (R76). -/
def linearWrite (flat : Word → Nat) (place : Nat → Nat) (w : Width) (addr data : Word) (s : State) : State :=
  if flat addr % widthBytes w = 0 then s.vwrite (place (flat addr)) w data
  else writeBytes (fun x b t => t.putByte (place (flat x)) b) (widthBytes w) addr data s

/-! ### PC-98 planes (R85, R223) -/

/-- `vop_offset` (R85, R222). -/
def State.vopOffset (s : State) : Nat := if s.cfg.pc98.vopAccess then s.plat.vopPageOffset.toNat else 0

/-- `PA(p, a) = a + PLANE_OFF[p] + vop_offset` (R223). -/
def State.planeAddr (s : State) (p : Plane) (a : Nat) : Nat := a + planeOff p + s.vopOffset

/-- The four planes' content at in-plane offset `a`, width `n`. -/
def State.planeQuad (s : State) (a : Nat) (n : PortWidth) : Quad := Quad.ofFn fun p => s.pread (s.planeAddr p a) n

/-! ### Outcomes -/

/-- The outcome of a step, for this machine. -/
abbrev Result := Host.Outcome State Fault Refusal

/-- The outcome of a read: the value, zero-extended, and the next state. -/
abbrev ReadResult := Host.Outcome (Word × State) Fault Refusal

/-- The outcome of a decoder read. -/
abbrev PortResult := Host.Outcome (Half × State) Fault Refusal

/-- Go on from a next state; a fault or a refusal ends the operation. -/
def andThen {α β : Type} (r : Host.Outcome α Fault Refusal) (k : α → Host.Outcome β Fault Refusal) :
    Host.Outcome β Fault Refusal :=
  match r with
  | .next x => k x
  | .fault e => .fault e
  | .refused e => .refused e

/-- The end of a read: the value goes to the output port. -/
def finishRead (w : Width) (r : ReadResult) : Result := andThen r fun q => .next (q.2.setOut (Out.ofWidth w q.1))

/-- The end of a write: the output port holds nothing. -/
def finishWrite (r : Result) : Result := andThen r fun t => .next (t.setOut .none)

/-- `raise ContractViolation(PC98_ALIGN)` on a width-2 access at an odd address or offset, before anything else (R210,
R328). -/
def aligned {α : Type} (n : PortWidth) (x : Nat) (r : Host.Outcome α Fault Refusal) : Host.Outcome α Fault Refusal :=
  if misaligned n x then .fault .contractViolationPc98Align else r

end Sys2Proof.Machine
end

