-- ==== Sys2Proof/Machine/Flags.lean ====
section
/-! DEFINITION. The block has no flags (R33). The nearest things stand here: the once-only diagnostics (R324) and the
mask computations of the EGC (R26, R261, R282). -/

namespace Sys2Proof.Machine

/-- `log_once(kind, value)` (R324): the mark is added the first time and has no other effect. -/
def State.logOnce (s : State) (k : LogKind) (v : Byte) : State :=
  if s.logged.contains ⟨k, v⟩ then s else s.setLogged (s.logged ++ [⟨k, v⟩])

/-- `SrcMask.b[ln] <- m`. -/
def State.setMaskLane (s : State) (ln : Bool) (m : Byte) : State := s.setSrcMask (setLane s.srcMask ln m)

/-- `dstbit_mask()` (R261): a full mask while 8 or more bits remain, else a partial one anchored at the edge of the
direction, shifted by the destination bit phase. -/
def dstbitMask (sh : Shifter) : Byte :=
  let mb : Byte :=
    if 8 ≤ sh.remain then 0xFF#8
    else if sh.dec then 0xFF#8 >>> (8 - sh.remain)
    else 0xFF#8 <<< (8 - sh.remain)
  if sh.dec then mb <<< sh.dstbit else mb >>> sh.dstbit

/-- The effective write mask on the paths that take their data from the Shifter: `egc_mask & SrcMask` (R282). -/
def State.shiftedMask (s : State) : Half := s.cfg.egc.mask &&& s.srcMask

end Sys2Proof.Machine
end

