-- ==== Sys2Proof/Machine/Raster.lean ====
section
/-! DEFINITION. The Raster Operation Engine (40_raster_engine.md): `RasterOp`, the four write modes, and the meanings of
the ROPSEL and WMODE rows. -/

namespace Sys2Proof.Machine

/-! ### RasterOp (R130 to R133, R139) -/

/-- `ROP.NONE` (R130). -/
def rasterNone (latch input mask : Word) : Word := (input &&& mask) ||| (latch &&& ~~~mask)

/-- `ROP.AND` (R131). -/
def rasterAnd (latch input mask : Word) : Word := (input ||| ~~~mask) &&& latch

/-- `ROP.OR` (R132). -/
def rasterOr (latch input mask : Word) : Word := (input &&& mask) ||| latch

/-- `ROP.XOR` (R133). -/
def rasterXor (latch input mask : Word) : Word := (input &&& mask) ^^^ latch

/-- `RasterOp(input, mask)`: the combination `raster_op` selects; the field has exactly four values (R107, R139). -/
def State.rasterOp (s : State) (input mask : Word) : Word :=
  match s.cfg.planar.rasterOp with
  | 0#2 => rasterNone s.latch input mask
  | 1#2 => rasterAnd s.latch input mask
  | 2#2 => rasterOr s.latch input mask
  | 3#2 => rasterXor s.latch input mask

/-! ### ModeOperation (R134 to R138, R140) -/

/-- Write mode 0 (R134): rotate, expand, set/reset override, `RasterOp` against the bit mask. -/
def State.writeMode0 (s : State) (val : Byte) : Word :=
  let c := s.cfg.planar
  let full := expand (ror8 val c.dataRotate)
  s.rasterOp ((full &&& ~~~c.fullEnableSetReset) ||| (c.fullSetReset &&& c.fullEnableSetReset)) c.fullBitMask

/-- Write mode 1 (R135): the Latch, the host byte ignored. -/
def State.writeMode1 (s : State) (_ : Byte) : Word := s.latch

/-- Write mode 2 (R136): the low nibble filled across the planes, `RasterOp` against the bit mask. -/
def State.writeMode2 (s : State) (val : Byte) : Word :=
  s.rasterOp (fill (val.setWidth 4)) s.cfg.planar.fullBitMask

/-- Write mode 3 (R137): set/reset data, the rotated byte ANDed with the bit mask as the mask. -/
def State.writeMode3 (s : State) (val : Byte) : Word :=
  let c := s.cfg.planar
  s.rasterOp c.fullSetReset (expand (ror8 val c.dataRotate) &&& c.fullBitMask)

/-- An unsupported write mode (R138, R325): logged once, planar word 0. -/
def State.writeModeUnsup (s : State) (mode : Byte) : Word × State := (0#32, s.logOnce .writeMode mode)

/-- `ModeOperation(val)` (R140): the planar word, and the state with a diagnostic added under an unsupported mode. -/
def State.modeOperation (s : State) (val : Byte) : Word × State :=
  match s.cfg.planar.writeMode.toNat with
  | 0 => (s.writeMode0 val, s)
  | 1 => (s.writeMode1 val, s)
  | 2 => (s.writeMode2 val, s)
  | 3 => (s.writeMode3 val, s)
  | _ => s.writeModeUnsup s.cfg.planar.writeMode

/-! ### Meanings -/

/-- `ROP.NONE` (R130). -/
def execRopNone (input mask : Word) (s : State) : Result := .next (s.setOut (.word (rasterNone s.latch input mask)))

/-- `ROP.AND` (R131). -/
def execRopAnd (input mask : Word) (s : State) : Result := .next (s.setOut (.word (rasterAnd s.latch input mask)))

/-- `ROP.OR` (R132). -/
def execRopOr (input mask : Word) (s : State) : Result := .next (s.setOut (.word (rasterOr s.latch input mask)))

/-- `ROP.XOR` (R133). -/
def execRopXor (input mask : Word) (s : State) : Result := .next (s.setOut (.word (rasterXor s.latch input mask)))

/-- `WM0` (R134). -/
def execWm0 (val : Byte) (s : State) : Result := .next (s.setOut (.word (s.writeMode0 val)))

/-- `WM1` (R135). -/
def execWm1 (val : Byte) (s : State) : Result := .next (s.setOut (.word (s.writeMode1 val)))

/-- `WM2` (R136). -/
def execWm2 (val : Byte) (s : State) : Result := .next (s.setOut (.word (s.writeMode2 val)))

/-- `WM3` (R137). -/
def execWm3 (val : Byte) (s : State) : Result := .next (s.setOut (.word (s.writeMode3 val)))

/-- `WM.UNSUP` (R138); the host byte does not matter. -/
def execWmUnsup (mode _val : Byte) (s : State) : Result :=
  let r := s.writeModeUnsup mode
  .next (r.2.setOut (.word r.1))

end Sys2Proof.Machine
end

