-- ==== Sys2Proof/Machine/Planar.lean ====
section
/-! DEFINITION. The Planar Handler Family (41_planar_handlers.md): the latched and the byte-linear handlers, and the
meanings of the RMODE rows and of the BUS rows of handler tags 0 to 7 and 9 to 14. -/

namespace Sys2Proof.Machine

/-! ### Shared routines of the latched handlers -/

/-- `ColourCompare(L)` (R156). -/
def colourCompare (c : PlanarConfig) (l : Word) : Byte :=
  let t := (l &&& fill c.colorDontCare) ^^^ fill (c.colorCompare &&& c.colorDontCare)
  ~~~(lane t 0 ||| lane t 1 ||| lane t 2 ||| lane t 3)

/-- The index a planar read uses: bit 0 cleared under odd/even (R153). -/
def State.readIndex (s : State) (idx : Nat) : Nat := if s.cfg.planar.oddEven then idx / 2 * 2 else idx

/-- The plane a planar read uses: under odd/even the nominal plane's bit 0 is replaced by the address's low bit (R153). -/
def State.readPlane (s : State) (raw : Bool) (plane : Plane) : Plane :=
  if s.cfg.planar.oddEven then
    ⟨plane.val / 2 * 2 + raw.toNat, by have := plane.isLt; have := Bool.toNat_le raw; omega⟩
  else plane

/-- `PlanarRead` under read mode 0: the Latch load, then one plane's byte (R152, R153, R155). -/
def State.planarRead0 (s : State) (idx : Nat) (raw : Bool) (plane : Plane) : Byte × State :=
  let t := s.latchLoad (s.readIndex idx)
  (lane t.latch (s.readPlane raw plane), t)

/-- `PlanarRead` under read mode 1: the Latch load, then the colour compare (R152, R153, R156). -/
def State.planarRead1 (s : State) (idx : Nat) : Byte × State :=
  let t := s.latchLoad (s.readIndex idx)
  (colourCompare s.cfg.planar t.latch, t)

/-- `PlanarRead(idx, raw, plane)` (R153). -/
def State.planarReadByte (s : State) (idx : Nat) (raw : Bool) (plane : Plane) : Byte × State :=
  if s.cfg.planar.readMode then s.planarRead1 idx else s.planarRead0 idx raw plane

/-- `PlanarWrite(idx, val, lanes)` (R159): the planes enabled in the map mask take the engine's word, the others keep
their VRAM byte. -/
def State.planarWriteByte (s : State) (idx : Nat) (val : Byte) (lanes : Word) : State :=
  let r := s.modeOperation val
  let m := s.cfg.planar.fullMapMask &&& lanes
  r.2.planarStore idx ((s.planarRead idx &&& ~~~m) ||| (r.1 &&& m))

/-! ### UNCHAINED (R154, R157, R158) -/

/-- The byte read of `UNCHAINED` (R154). -/
def unchainedReadByte (addr : Word) (s : State) : Byte × State :=
  let a := s.indexRead addr
  s.planarReadByte a (decide (a % 2 = 1)) s.cfg.planar.readMapSelect.toFin

/-- The byte write of `UNCHAINED` (R157). -/
def unchainedWriteByte (addr : Word) (val : Byte) (s : State) : State :=
  s.planarWriteByte (s.indexWrite addr) val 0xFFFFFFFF#32

/-- A read through `UNCHAINED` (R75, R158). -/
def unchainedRead (w : Width) (addr : Word) (s : State) : Word × State :=
  readBytes unchainedReadByte (widthBytes w) addr s.debitRead

/-- A write through `UNCHAINED` (R75, R158). -/
def unchainedWrite (w : Width) (addr data : Word) (s : State) : State :=
  writeBytes unchainedWriteByte (widthBytes w) addr data s.debitWrite

/-! ### CHAINED_VGA (R160 to R162) and CHAINED_VGA_SLOW (R166, R167) -/

/-- The planar index of generic chain-4: `a & ~3` (R160). -/
def chain4Index (a : Nat) : Nat := a / 4 * 4

/-- The VRAM byte offset of generic chain-4: `((a & ~3) << 2) | (a & 3)` (R160). -/
def chain4Place (a : Nat) : Nat := a / 4 * 16 + a % 4

/-- A read through `CHAINED_VGA` (R161, R76). -/
def chainedVgaRead (w : Width) (addr : Word) (s : State) : Word × State :=
  let t := s.debitRead
  (linearRead t.flatRead chain4Place w addr t, t)

/-- A write through `CHAINED_VGA` (R162, R76). -/
def chainedVgaWrite (w : Width) (addr data : Word) (s : State) : State :=
  let t := s.debitWrite
  linearWrite t.flatWrite chain4Place w addr data t

/-- The byte read of `CHAINED_VGA_SLOW` (R166). -/
def chainedVgaSlowReadByte (addr : Word) (s : State) : Byte × State :=
  let a := s.flatRead addr
  s.planarReadByte (chain4Index a) (decide (a % 2 = 1)) (chainPlane a)

/-- The byte write of `CHAINED_VGA_SLOW`: only the addressed plane's lane (R167). -/
def chainedVgaSlowWriteByte (addr : Word) (val : Byte) (s : State) : State :=
  let a := s.flatWrite addr
  s.planarWriteByte (chain4Index a) val (laneMask (chainPlane a))

/-- A read through `CHAINED_VGA_SLOW` (R75). -/
def chainedVgaSlowRead (w : Width) (addr : Word) (s : State) : Word × State :=
  readBytes chainedVgaSlowReadByte (widthBytes w) addr s.debitRead

/-- A write through `CHAINED_VGA_SLOW` (R75). -/
def chainedVgaSlowWrite (w : Width) (addr data : Word) (s : State) : State :=
  writeBytes chainedVgaSlowWriteByte (widthBytes w) addr data s.debitWrite

/-! ### CHAINED_VGA_ET4K (R168, R169, R172) and CHAINED_VGA_ET4K_SLOW (R170, R171) -/

/-- The planar index of the vendor chain-4: `a >> 2` (R172). -/
def et4kIndex (a : Nat) : Nat := a / 4

/-- The VRAM byte offset of the vendor chain-4: `a` itself (R172). -/
def et4kPlace (a : Nat) : Nat := a

/-- A read through `CHAINED_VGA_ET4K` (R168, R76). -/
def chainedVgaEt4kRead (w : Width) (addr : Word) (s : State) : Word × State :=
  let t := s.debitRead
  (linearRead t.flatRead et4kPlace w addr t, t)

/-- A write through `CHAINED_VGA_ET4K` (R169, R76). -/
def chainedVgaEt4kWrite (w : Width) (addr data : Word) (s : State) : State :=
  let t := s.debitWrite
  linearWrite t.flatWrite et4kPlace w addr data t

/-- The byte read of `CHAINED_VGA_ET4K_SLOW` (R170). -/
def chainedVgaEt4kSlowReadByte (addr : Word) (s : State) : Byte × State :=
  let a := s.flatRead addr
  s.planarReadByte (et4kIndex a) (decide (a % 2 = 1)) (chainPlane a)

/-- The byte write of `CHAINED_VGA_ET4K_SLOW` (R171). -/
def chainedVgaEt4kSlowWriteByte (addr : Word) (val : Byte) (s : State) : State :=
  let a := s.flatWrite addr
  s.planarWriteByte (et4kIndex a) val (laneMask (chainPlane a))

/-- A read through `CHAINED_VGA_ET4K_SLOW` (R75). -/
def chainedVgaEt4kSlowRead (w : Width) (addr : Word) (s : State) : Word × State :=
  readBytes chainedVgaEt4kSlowReadByte (widthBytes w) addr s.debitRead

/-- A write through `CHAINED_VGA_ET4K_SLOW` (R75). -/
def chainedVgaEt4kSlowWrite (w : Width) (addr data : Word) (s : State) : State :=
  writeBytes chainedVgaEt4kSlowWriteByte (widthBytes w) addr data s.debitWrite

/-! ### CHAINED_EGA (R174, R175) and LINEAR (R176, R177) -/

/-- A flat address is its own VRAM byte offset. -/
def flatPlace (a : Nat) : Nat := a

/-- A read through `CHAINED_EGA` (R174, R76). -/
def chainedEgaRead (w : Width) (addr : Word) (s : State) : Word × State :=
  let t := s.debitRead
  (linearRead t.flatRead flatPlace w addr t, t)

/-- A write through `CHAINED_EGA` (R175, R76). -/
def chainedEgaWrite (w : Width) (addr data : Word) (s : State) : State :=
  let t := s.debitWrite
  linearWrite t.flatWrite flatPlace w addr data t

/-- `LFB_SIZE` in bytes (R81). -/
def LfbSize.bytes : LfbSize → Nat
  | .kb64 => 0x10000
  | .mb1 => 0x100000
  | .mb2 => 0x200000
  | .mb4 => 0x400000

/-- The first 4 KB page of the linear framebuffer window (R201). -/
def Lfb.firstPage (l : Lfb) : Nat := l.base.toNat / 4096

/-- The number of 4 KB pages that hold the bytes `LFB_BASE .. LFB_BASE + LFB_SIZE - 1` (R201). Not wrapped: the part of a
window that lies past the top of the address space is bound nowhere, which is the model's choice (log entry 39). -/
def Lfb.pages (l : Lfb) : Nat := (l.base.toNat + l.size.bytes - 1) / 4096 + 1 - l.firstPage

/-- The linear framebuffer window that holds the page of an address, where there is one (log entry 19). -/
def State.lfbOf (s : State) (addr : Word) : Option Lfb :=
  match s.plat.lfb with
  | none => none
  | some l =>
    let page := addr.toNat / 4096
    if l.firstPage ≤ page ∧ page < l.firstPage + l.pages then some l else none

/-- The flat address of an access in the linear framebuffer window: window base and mask, no bank (R81, R176, R201). -/
def State.lfbFlat (s : State) (l : Lfb) (addr : Word) : Nat := s.wrap ((addr - l.base).toNat % l.size.bytes)

/-- The flat address of a read through `LINEAR` (R176). -/
def State.linearFlatRead (s : State) (addr : Word) : Nat :=
  match s.lfbOf addr with
  | some l => s.lfbFlat l addr
  | none => s.flatRead addr

/-- The flat address of a write through `LINEAR` (R177). -/
def State.linearFlatWrite (s : State) (addr : Word) : Nat :=
  match s.lfbOf addr with
  | some l => s.lfbFlat l addr
  | none => s.flatWrite addr

/-- A read through `LINEAR` (R176, R76). -/
def linearTagRead (w : Width) (addr : Word) (s : State) : Word × State :=
  let t := s.debitRead
  (linearRead t.linearFlatRead flatPlace w addr t, t)

/-- A write through `LINEAR` (R177, R76). -/
def linearTagWrite (w : Width) (addr data : Word) (s : State) : State :=
  let t := s.debitWrite
  linearWrite t.linearFlatWrite flatPlace w addr data t

/-! ### Meanings of the RMODE rows -/

/-- `RM0`: `PlanarRead` under read mode 0 (R153, R155). -/
def execRm0 (idx : Word) (raw : Bool) (plane : Plane) (s : State) : Result :=
  let r := s.planarRead0 idx.toNat raw plane
  .next (r.2.setOut (.byte r.1))

/-- `RM1`: `PlanarRead` under read mode 1; the nominal plane is not used (R153, R156). -/
def execRm1 (idx : Word) (_raw : Bool) (_plane : Plane) (s : State) : Result :=
  let r := s.planarRead1 idx.toNat
  .next (r.2.setOut (.byte r.1))

/-! ### Meanings of the BUS rows, tags 1 to 7 -/

/-- `UNCHAINED.RD` (R154). -/
def execUnchainedRd (w : Width) (addr : Word) (s : State) : Result := finishRead w (.next (unchainedRead w addr s))

/-- `UNCHAINED.WR` (R157). -/
def execUnchainedWr (w : Width) (addr data : Word) (s : State) : Result := finishWrite (.next (unchainedWrite w addr data s))

/-- `CHAINED_EGA.RD` (R174). -/
def execChainedEgaRd (w : Width) (addr : Word) (s : State) : Result := finishRead w (.next (chainedEgaRead w addr s))

/-- `CHAINED_EGA.WR` (R175). -/
def execChainedEgaWr (w : Width) (addr data : Word) (s : State) : Result := finishWrite (.next (chainedEgaWrite w addr data s))

/-- `CHAINED_VGA.RD` (R161). -/
def execChainedVgaRd (w : Width) (addr : Word) (s : State) : Result := finishRead w (.next (chainedVgaRead w addr s))

/-- `CHAINED_VGA.WR` (R162). -/
def execChainedVgaWr (w : Width) (addr data : Word) (s : State) : Result := finishWrite (.next (chainedVgaWrite w addr data s))

/-- `CHAINED_VGA_SLOW.RD` (R166). -/
def execChainedVgaSlowRd (w : Width) (addr : Word) (s : State) : Result := finishRead w (.next (chainedVgaSlowRead w addr s))

/-- `CHAINED_VGA_SLOW.WR` (R167). -/
def execChainedVgaSlowWr (w : Width) (addr data : Word) (s : State) : Result := finishWrite (.next (chainedVgaSlowWrite w addr data s))

/-- `CHAINED_VGA_ET4K.RD` (R168). -/
def execChainedVgaEt4kRd (w : Width) (addr : Word) (s : State) : Result := finishRead w (.next (chainedVgaEt4kRead w addr s))

/-- `CHAINED_VGA_ET4K.WR` (R169). -/
def execChainedVgaEt4kWr (w : Width) (addr data : Word) (s : State) : Result := finishWrite (.next (chainedVgaEt4kWrite w addr data s))

/-- `CHAINED_VGA_ET4K_SLOW.RD` (R170). -/
def execChainedVgaEt4kSlowRd (w : Width) (addr : Word) (s : State) : Result := finishRead w (.next (chainedVgaEt4kSlowRead w addr s))

/-- `CHAINED_VGA_ET4K_SLOW.WR` (R171). -/
def execChainedVgaEt4kSlowWr (w : Width) (addr data : Word) (s : State) : Result := finishWrite (.next (chainedVgaEt4kSlowWrite w addr data s))

/-- `LINEAR.RD` (R176). -/
def execLinearRd (w : Width) (addr : Word) (s : State) : Result := finishRead w (.next (linearTagRead w addr s))

/-- `LINEAR.WR` (R177). -/
def execLinearWr (w : Width) (addr data : Word) (s : State) : Result := finishWrite (.next (linearTagWrite w addr data s))

/-! ### Meanings of the BUS rows that are refused: `UNMAPPED` (R83) and the legacy tags 9 to 14 (R178) -/

/-- `raise Refuse(UNMAPPED)` (R83, R329). -/
def refuseUnmapped {α : Type} : Host.Outcome α Fault Refusal := .refused .unmapped

/-- `raise Refuse(LEGACY_HANDLER)` (R178, R329). -/
def refuseLegacy {α : Type} : Host.Outcome α Fault Refusal := .refused .legacyHandler

/-- `UNMAPPED.RD`: refused (R83). -/
def execUnmappedRd (_w : Width) (_addr : Word) (_s : State) : Result := refuseUnmapped

/-- `UNMAPPED.WR`: refused (R83). -/
def execUnmappedWr (_w : Width) (_addr _data : Word) (_s : State) : Result := refuseUnmapped

/-- `TEXT.RD`: refused (R178). -/
def execTextRd (_w : Width) (_addr : Word) (_s : State) : Result := refuseLegacy

/-- `TEXT.WR`: refused (R178). -/
def execTextWr (_w : Width) (_addr _data : Word) (_s : State) : Result := refuseLegacy

/-- `CGA_SNOW_TEXT.RD`: refused (R178). -/
def execCgaSnowTextRd (_w : Width) (_addr : Word) (_s : State) : Result := refuseLegacy

/-- `CGA_SNOW_TEXT.WR`: refused (R178). -/
def execCgaSnowTextWr (_w : Width) (_addr _data : Word) (_s : State) : Result := refuseLegacy

/-- `HERCULES.RD`: refused (R178). -/
def execHerculesRd (_w : Width) (_addr : Word) (_s : State) : Result := refuseLegacy

/-- `HERCULES.WR`: refused (R178). -/
def execHerculesWr (_w : Width) (_addr _data : Word) (_s : State) : Result := refuseLegacy

/-- `TANDY.RD`: refused (R178). -/
def execTandyRd (_w : Width) (_addr : Word) (_s : State) : Result := refuseLegacy

/-- `TANDY.WR`: refused (R178). -/
def execTandyWr (_w : Width) (_addr _data : Word) (_s : State) : Result := refuseLegacy

/-- `PCJR.RD`: refused (R178). -/
def execPcjrRd (_w : Width) (_addr : Word) (_s : State) : Result := refuseLegacy

/-- `PCJR.WR`: refused (R178). -/
def execPcjrWr (_w : Width) (_addr _data : Word) (_s : State) : Result := refuseLegacy

/-- `AMSTRAD.RD`: refused (R178). -/
def execAmstradRd (_w : Width) (_addr : Word) (_s : State) : Result := refuseLegacy

/-- `AMSTRAD.WR`: refused (R178). -/
def execAmstradWr (_w : Width) (_addr _data : Word) (_s : State) : Result := refuseLegacy

end Sys2Proof.Machine
end

