-- ==== Sys2Proof/Machine/Dispatcher.lean ====
section
/-! DEFINITION. The Address/Mode Dispatcher (42_dispatcher.md): handler selection, the bindings, the lookup, and the
meanings of the DISP and WINSEL rows and of DISPATCH. -/

namespace Sys2Proof.Machine

/-! ### The Binding (R30, R202) -/

/-- Does a range hold a page? -/
def PageRange.holds (r : PageRange) (page : Nat) : Bool := decide (r.first ≤ page) && decide (page < r.first + r.count)

/-- `Bound[page]`: the tag of the first range that holds the page; a page in none is `UNMAPPED` (R190). -/
def Binding.handler (b : Binding) (page : Nat) : Tag :=
  match b.bound.find? (fun r => r.holds page) with
  | some r => r.tag
  | none => .unmapped

/-- The 4 KB page of a bus address (R202). -/
def pageOf (addr : Word) : Nat := addr.toNat / 4096

/-! ### Legacy windows (R80, R200) -/

/-- The number of pages of the window a `window_select` value names (R200). -/
def winPages (k : Fin 4) : Nat :=
  match k with
  | 0 => 32
  | 1 => 16
  | 2 => 8
  | 3 => 8

/-- The offset mask of the window a `window_select` value names (R200). -/
def winMask (k : Fin 4) : Word :=
  match k with
  | 0 => 0x1FFFF#32
  | 1 => 0xFFFF#32
  | 2 => 0x7FFF#32
  | 3 => 0x7FFF#32

/-- The pages of legacy window `k`, bound to a tag: as many pages as R200 gives the window, from the page that holds its
base on, counted without wrapping. What a base that is no multiple of 4096, or a window that runs past 2^32, binds is the
model's choice (log entry 42). -/
def Platform.window (p : Platform) (k : Fin 4) (h : Tag) : PageRange := ⟨pageOf p.winBase[k], winPages k, h⟩

/-- The four values of `window_select`. -/
def windows : List (Fin 4) := [0, 1, 2, 3]

/-- Is a range inside one of the legacy windows? Such a range is replaced by `BindWindow`. -/
def Platform.inWindow (p : Platform) (r : PageRange) : Bool :=
  windows.any fun k =>
    decide ((p.window k .unmapped).first ≤ r.first) &&
      decide (r.first + r.count ≤ (p.window k .unmapped).first + winPages k)

/-- The page ranges `BindWindow(h, k)` leaves: the selected window bound to `h`, every page of the other windows reset
to unmapped, every other page as it was (R200). -/
def windowRanges (p : Platform) (h : Tag) (k : Fin 4) (old : List PageRange) : List PageRange :=
  p.window k h ::
    ((windows.filter fun j => j ≠ k).map (fun j => p.window j .unmapped) ++ old.filter fun r => !p.inWindow r)

/-- `BindWindow(h, k)` (R200). -/
def State.bindWindow (s : State) (h : Tag) (k : Fin 4) : State :=
  s.setBinding { s.binding with
    bound := windowRanges s.plat h k s.binding.bound
    pageBase := s.plat.winBase[k]
    pageMask := winMask k }

/-! ### The other bindings (R192, R197, R201) -/

/-- `BindPC98`: pages 0xA0..0xBF, and 0xE0..0xE7 when `analog16 = 1` (R197); the window base and mask are not used by
the decoder and stay (log entry 18). -/
def State.bindPc98 (s : State) : State :=
  s.setBinding { s.binding with
    bound := ⟨0xA0, 32, .pc98⟩ :: ((if s.cfg.pc98.analog16 then [⟨0xE0, 8, .pc98⟩] else []) ++ s.binding.bound) }

/-- `BindLegacy(h)`: the source gives no page range, so the ranges are a free value (R192, log entry 15). -/
def State.bindLegacy (s : State) (h : Tag) : State :=
  s.setBinding { s.binding with
    bound := (Config.legacyPages h).map (fun r => ⟨r.1, r.2, h⟩) ++ s.binding.bound }

/-- `BindLFB`: the pages of the linear framebuffer window bound to `LINEAR`, whatever handler the legacy window has
(R201). -/
def State.bindLfb (s : State) : State :=
  match s.plat.lfb with
  | none => s
  | some l => s.setBinding { s.binding with bound := ⟨l.firstPage, l.pages, .linear⟩ :: s.binding.bound }

/-! ### Handler selection (R192 to R198) -/

/-- The chained 8-bpp tree (R194). -/
def selectVga8 (v : Vendor) (c : ExtConfig) : Tag :=
  if !c.disp.chained then .unchained
  else if !c.disp.compatibleChain4 then .linear
  else
    let slow := decide (c.planar.fullBitMask ≠ 0xFFFFFFFF#32)
    match v with
    | .et4000 => if slow then .chainedVgaEt4kSlow else .chainedVgaEt4k
    | .other => if slow then .chainedVgaSlow else .chainedVga

/-- The selection by display mode (R193 to R198). -/
def selectByMode (v : Vendor) (c : ExtConfig) : Tag :=
  match c.disp.displayMode with
  | .text | .cga2 | .cga4 => .text
  | .ega => if c.disp.chained then .chainedEga else .unchained
  | .vga8 => selectVga8 v c
  | .lin15 | .lin16 | .lin24 | .lin32 => .linear
  | .pc98 => .pc98
  | .other => .unmapped

/-- `SelectHandler()`: the machine-specific legacy paths are resolved first and short-circuit (R192, log entry 28). -/
def selectHandler (p : Platform) (c : ExtConfig) : Tag :=
  match p.machine with
  | .cga => if p.cgaSnow && decide (c.disp.displayMode = .text) then .cgaSnowText else .text
  | .hercules => .hercules
  | .tandy => .tandy
  | .pcjr => .pcjr
  | .amstrad => .amstrad
  | .pc98 => .pc98
  | .egavga => selectByMode p.vendor c

/-- The constraints R8 puts on the parameters of a machine that is dispatched under a configuration: those on the
parameters alone, and at least 0x80000 bytes of VRAM where the selection is the PC-98 decoder, by machine or by display
mode (R197). A `DISPATCH` outside them is not stopped: offsets wrap as ever (R14, log entry 38). -/
def Platform.allows (p : Platform) (c : ExtConfig) : Bool :=
  p.wf && (selectHandler p c != .pc98 || decide (0x80000 ≤ p.vmemSize))

/-! ### Dispatch (R190, R199) -/

/-- The first two steps of `DISPATCH`: the bank latch (R199) and every page unmapped. -/
def State.latchBanks (s : State) : State :=
  s.setBinding { s.binding with
    bound := []
    bankReadFull := BitVec.ofNat 32 (s.cfg.disp.bankRead * s.cfg.disp.bankSize)
    bankWriteFull := BitVec.ofNat 32 (s.cfg.disp.bankWrite * s.cfg.disp.bankSize) }

/-- The binding of a selected tag (R190): the decoder, a legacy handler, or the selected window. `TEXT` on an EGAVGA
machine is bound by the window (log entry 16). -/
def State.bindTag (s : State) (h : Tag) : State :=
  match h with
  | .pc98 => s.bindPc98
  | .text => if s.plat.machine = .egavga then s.bindWindow .text s.cfg.disp.windowSelect.toFin else s.bindLegacy .text
  | .cgaSnowText => s.bindLegacy .cgaSnowText
  | .hercules => s.bindLegacy .hercules
  | .tandy => s.bindLegacy .tandy
  | .pcjr => s.bindLegacy .pcjr
  | .amstrad => s.bindLegacy .amstrad
  | .unmapped | .unchained | .chainedEga | .chainedVga | .chainedVgaSlow | .chainedVgaEt4k | .chainedVgaEt4kSlow
  | .linear => s.bindWindow h s.cfg.disp.windowSelect.toFin

/-- `DISPATCH` with the selected handler given (R190). -/
def State.dispatchWith (s : State) (h : Tag) : State := (s.latchBanks.bindTag h).bindLfb

/-- `DISPATCH` (R190). -/
def State.dispatch (s : State) : State := s.dispatchWith (selectHandler s.plat s.cfg)

/-! ### Meanings -/

/-- `DISPATCH` (R190). -/
def execDispatch (s : State) : Result := .next (s.dispatch.setOut .none)

/-- `DISP.UNMAPPED` (R198): Dispatch with this tag the selection (log entry 23). -/
def execDispUnmapped (s : State) : Result := .next ((s.dispatchWith .unmapped).setOut .none)

/-- `DISP.UNCHAINED` (R194, R195): Dispatch with this tag the selection (log entry 23). -/
def execDispUnchained (s : State) : Result := .next ((s.dispatchWith .unchained).setOut .none)

/-- `DISP.CHAINED_EGA` (R195): Dispatch with this tag the selection (log entry 23). -/
def execDispChainedEga (s : State) : Result := .next ((s.dispatchWith .chainedEga).setOut .none)

/-- `DISP.CHAINED_VGA` (R194): Dispatch with this tag the selection (log entry 23). -/
def execDispChainedVga (s : State) : Result := .next ((s.dispatchWith .chainedVga).setOut .none)

/-- `DISP.CHAINED_VGA_SLOW` (R194): Dispatch with this tag the selection (log entry 23). -/
def execDispChainedVgaSlow (s : State) : Result := .next ((s.dispatchWith .chainedVgaSlow).setOut .none)

/-- `DISP.CHAINED_VGA_ET4K` (R194): Dispatch with this tag the selection (log entry 23). -/
def execDispChainedVgaEt4k (s : State) : Result := .next ((s.dispatchWith .chainedVgaEt4k).setOut .none)

/-- `DISP.CHAINED_VGA_ET4K_SLOW` (R194): Dispatch with this tag the selection (log entry 23). -/
def execDispChainedVgaEt4kSlow (s : State) : Result := .next ((s.dispatchWith .chainedVgaEt4kSlow).setOut .none)

/-- `DISP.LINEAR` (R193, R194): Dispatch with this tag the selection (log entry 23). -/
def execDispLinear (s : State) : Result := .next ((s.dispatchWith .linear).setOut .none)

/-- `DISP.PC98` (R197): Dispatch with this tag the selection (log entry 23). -/
def execDispPc98 (s : State) : Result := .next ((s.dispatchWith .pc98).setOut .none)

/-- `DISP.TEXT` (R192, R196): Dispatch with this tag the selection (log entry 23). -/
def execDispText (s : State) : Result := .next ((s.dispatchWith .text).setOut .none)

/-- `DISP.CGA_SNOW_TEXT` (R192): Dispatch with this tag the selection (log entry 23). -/
def execDispCgaSnowText (s : State) : Result := .next ((s.dispatchWith .cgaSnowText).setOut .none)

/-- `DISP.HERCULES` (R192): Dispatch with this tag the selection (log entry 23). -/
def execDispHercules (s : State) : Result := .next ((s.dispatchWith .hercules).setOut .none)

/-- `DISP.TANDY` (R192): Dispatch with this tag the selection (log entry 23). -/
def execDispTandy (s : State) : Result := .next ((s.dispatchWith .tandy).setOut .none)

/-- `DISP.PCJR` (R192): Dispatch with this tag the selection (log entry 23). -/
def execDispPcjr (s : State) : Result := .next ((s.dispatchWith .pcjr).setOut .none)

/-- `DISP.AMSTRAD` (R192): Dispatch with this tag the selection (log entry 23). -/
def execDispAmstrad (s : State) : Result := .next ((s.dispatchWith .amstrad).setOut .none)

/-- `WINSEL.0`: `BindWindow(h, 0)` (R200, log entry 23). -/
def execWinsel0 (h : Tag) (s : State) : Result := .next ((s.bindWindow h 0).setOut .none)

/-- `WINSEL.1`: `BindWindow(h, 1)` (R200, log entry 23). -/
def execWinsel1 (h : Tag) (s : State) : Result := .next ((s.bindWindow h 1).setOut .none)

/-- `WINSEL.2`: `BindWindow(h, 2)` (R200, log entry 23). -/
def execWinsel2 (h : Tag) (s : State) : Result := .next ((s.bindWindow h 2).setOut .none)

/-- `WINSEL.3`: `BindWindow(h, 3)` (R200, log entry 23). -/
def execWinsel3 (h : Tag) (s : State) : Result := .next ((s.bindWindow h 3).setOut .none)

end Sys2Proof.Machine
end

