-- ==== Sys2Proof/Machine/Shifter.lean ====
section
/-! DEFINITION. The EGC Shifter (44_egc_shifter.md): reinit, input and output in both widths, and the meanings of the
SHIFT rows and of EGC_REINIT. -/

namespace Sys2Proof.Machine

/-! ### The buffer (R252) -/

/-- One byte of the buffer; indices are taken modulo 512. -/
def State.bufGet (s : State) (i : Nat) : Byte := s.buf.read (i % 512)

/-- One byte of the buffer written. -/
def State.bufPut (s : State) (i : Nat) (v : Byte) : State := s.setBuf (s.buf.write (i % 512) v)

/-- `bo(ofs)` (R252). -/
def State.bo (s : State) (ofs : Nat) : Byte := s.bufGet (s.sh.bufo + ofs)

/-- A cursor moved by `n` bytes: forward ascending, back descending (R252). -/
def advance (dec : Bool) (n cursor : Nat) : Nat := (cursor + (if dec then 512 - n else n)) % 512

/-- `bi_adv(n)` (R252). -/
def State.biAdv (s : State) (n : Nat) : State := s.setSh { s.sh with bufi := advance s.sh.dec n s.sh.bufi }

/-- `bo_adv(n)` (R252). -/
def State.boAdv (s : State) (n : Nat) : State := s.setSh { s.sh with bufo := advance s.sh.dec n s.sh.bufo }

/-! ### reinit (R250) -/

/-- The intra-byte shift amounts `(shl, shr)` of the two phases modulo 8 (R250). -/
def shiftAmounts (sb db : Nat) : Nat × Nat :=
  if sb < db then (8 - (db - sb), db - sb)
  else if db < sb then (sb - db, 8 - (sb - db))
  else (0, 0)

/-- The Shifter registers `reinit` loads from a configuration (R250). -/
def Shifter.fresh (c : EgcConfig) : Shifter :=
  let sb := c.shiftSrcbit.toNat % 8
  let db := c.shiftDstbit.toNat % 8
  let start := if c.shiftDescend then 499 else 0
  { dec := c.shiftDescend
    remain := c.shiftLength.toNat + 1
    srcbit := c.shiftSrcbit.toNat
    dstbit := c.shiftDstbit.toNat
    oSrcbit := sb
    oDstbit := db
    shl := (shiftAmounts sb db).1
    shr := (shiftAmounts sb db).2
    load := 0
    bufi := start
    bufo := start }

/-- `reinit()` (R250): the registers loaded from the configuration; buffer, SrcMask and EgcSrc kept. -/
def State.reinit (s : State) : State := s.setSh (Shifter.fresh s.cfg.egc)

/-! ### input (R256, R260) -/

/-- The four planes' chunks staged for a byte input: plane `p` at the cursor plus `4p` (R256). -/
def State.stage8 (s : State) (q : Quad) : State :=
  planes.foldl (fun t p => t.bufPut (t.sh.bufi + 4 * p.val) (getLane (q.get p) false)) s

/-- `input` with byte-wide chunks (R256); `q` holds the chunks in lane 0. -/
def State.shiftIn8 (s : State) (q : Quad) (odd : Bool) : State :=
  let t := s.stage8 q
  let u :=
    if t.sh.load ≤ 16 then
      let t1 := t.biAdv 1
      if 8 ≤ t1.sh.srcbit then t1.setSh { t1.sh with srcbit := t1.sh.srcbit - 8 }
      else t1.setSh { t1.sh with load := t1.sh.load + (8 - t1.sh.srcbit), srcbit := 0 }
    else t
  u.setMaskLane odd 0xFF#8

/-- The four planes' chunks staged for a word input (R260): ascending at the cursor and the next byte, descending at
the byte before the cursor and the cursor. -/
def State.stage16 (s : State) (q : Quad) : State :=
  let base := if s.sh.dec then 511 else 0
  planes.foldl
    (fun t p =>
      (t.bufPut (t.sh.bufi + base + 4 * p.val) (getLane (q.get p) false)).bufPut
        (t.sh.bufi + base + 4 * p.val + 1) (getLane (q.get p) true)) s

/-- `input` with word-wide chunks (R260). -/
def State.shiftIn16 (s : State) (q : Quad) : State :=
  let t := s.stage16 q
  let u :=
    if t.sh.load ≤ 16 then
      let t1 := t.biAdv 2
      let t2 := if 8 ≤ t1.sh.srcbit then t1.boAdv 1 else t1
      t2.setSh { t2.sh with load := t2.sh.load + (16 - t2.sh.srcbit), srcbit := 0 }
    else t
  u.setSrcMask 0xFFFF#16

/-! ### output (R262, R266) -/

/-- `EgcSrc[p].b[ln] <- f p` for every plane. -/
def State.setSrcLane (s : State) (ln : Bool) (f : Plane → Byte) : State :=
  s.setEgcSrc (Quad.ofFn fun p => setLane (s.egcSrc.get p) ln (f p))

/-- `TWO_BYTE` (R262): the combination of two adjacent buffer bytes; the cursor moves after it ascending, before it
descending. -/
def State.twoByte (s : State) (ln : Bool) : State :=
  if s.sh.dec then
    let t := s.boAdv 1
    t.setSrcLane ln fun p => (t.bo (4 * p.val + 1) >>> t.sh.shl) ||| (t.bo (4 * p.val) <<< t.sh.shr)
  else
    (s.setSrcLane ln fun p => (s.bo (4 * p.val) <<< s.sh.shl) ||| (s.bo (4 * p.val + 1) >>> s.sh.shr)).boAdv 1

/-- The data part of `output` for one lane (R262): the first byte of a transfer uses one buffer byte, equal phases copy
directly, otherwise two adjacent bytes are combined. -/
def State.outData (s : State) (ln : Bool) : State :=
  if s.sh.oSrcbit < s.sh.oDstbit then
    if s.sh.dstbit ≠ 0 then
      let t := s.setSrcLane ln fun p =>
        if s.sh.dec then s.bo (4 * p.val) <<< s.sh.shr else s.bo (4 * p.val) >>> s.sh.shr
      t.setSh { t.sh with dstbit := 0 }
    else s.twoByte ln
  else if s.sh.oDstbit < s.sh.oSrcbit then
    (s.setSh { s.sh with dstbit := 0 }).twoByte ln
  else
    let t := s.setSh { s.sh with dstbit := 0 }
    (t.setSrcLane ln fun p => t.bo (4 * p.val)).boAdv 1

/-- `output` for one byte lane, past the staged-data test (R262): a lane that lies before the destination phase is
skipped; otherwise its mask, the remaining count and its data. -/
def State.outLane (s : State) (ln : Bool) : State :=
  if 8 ≤ s.sh.dstbit then
    (s.setSh { s.sh with dstbit := s.sh.dstbit - 8 }).setMaskLane ln 0x00#8
  else
    let t := s.setMaskLane ln (dstbitMask s.sh)
    let used := if 0 < t.sh.dstbit then 8 - t.sh.dstbit else 8
    (t.setSh { t.sh with remain := t.sh.remain - min t.sh.remain used }).outData ln

/-- `output` for one byte lane (R262). `rec` is true for the calls `output` for a word makes: they skip the staged-data
test, the load debit and the reinitialisation. The comparison and the debit are on integers (R270). -/
def State.shiftOut8 (s : State) (ln rec : Bool) : State :=
  if rec then s.outLane ln
  else if (s.sh.load : Int) < 8 - (s.sh.dstbit : Int) then s.setMaskLane ln 0x00#8
  else
    let skip := decide (8 ≤ s.sh.dstbit)
    let t := s.setSh { s.sh with load := ((s.sh.load : Int) - (8 - (s.sh.dstbit : Int))).toNat }
    let u := t.outLane ln
    if !skip && u.sh.remain == 0 then u.reinit else u

/-- `output` for a word (R266): the staged-data test and the load debit once, then both lanes in direction order. -/
def State.shiftOut16 (s : State) : State :=
  if s.sh.load < 16 - s.sh.dstbit then s.setSrcMask 0x0000#16
  else
    let t := s.setSh { s.sh with load := s.sh.load - (16 - s.sh.dstbit) }
    let u := if t.sh.dec then (t.shiftOut8 true true).shiftOut8 false true
             else (t.shiftOut8 false true).shiftOut8 true true
    if u.sh.remain = 0 then u.reinit else u

/-- One `input` followed by one `output` of the access's width, as the EGC paths call them (R283, R304). -/
def State.shiftThrough (s : State) (n : PortWidth) (ln : Bool) (q : Quad) : State :=
  match n with
  | .byte => (s.shiftIn8 q ln).shiftOut8 ln false
  | .word => (s.shiftIn16 q).shiftOut16

/-! ### Meanings -/

/-- `EGC_REINIT` (R253). -/
def execEgcReinit (s : State) : Result := .next (s.reinit.setOut .none)

/-- `SH.REINIT` (R250). -/
def execShReinit (s : State) : Result := .next (s.reinit.setOut .none)

/-- `SH.IN8` (R256). -/
def execShIn8 (q0 q1 q2 q3 : Byte) (odd : Bool) (s : State) : Result :=
  let q : Quad := ⟨q0.setWidth 16, q1.setWidth 16, q2.setWidth 16, q3.setWidth 16⟩
  .next ((s.shiftIn8 q odd).setOut .none)

/-- `SH.IN16` (R260). -/
def execShIn16 (q0 q1 q2 q3 : Half) (s : State) : Result := .next ((s.shiftIn16 ⟨q0, q1, q2, q3⟩).setOut .none)

/-- `SH.OUT8` (R262). -/
def execShOut8 (ln rec : Bool) (s : State) : Result := .next ((s.shiftOut8 ln rec).setOut .none)

/-- `SH.OUT16` (R266). -/
def execShOut16 (s : State) : Result := .next (s.shiftOut16.setOut .none)

/-- `SH.DMASK` (R261). -/
def execShDmask (s : State) : Result := .next (s.setOut (.byte (dstbitMask s.sh)))

end Sys2Proof.Machine
end

