-- ==== Sys2Proof/Machine/Egc.lean ====
section
/-! DEFINITION. The EGC read and write paths and the Boolean-Combination Table (45_egc_rop.md), and the meanings of the
EGCROP, LSRC, FGC and REGLOAD rows. -/

namespace Sys2Proof.Machine

/-! ### Terms (R288, R295) -/

/-- The destination term: the words that contain the accessed bytes, `VRead(PA(p, a & ~1), 2)` (R288). -/
def State.destQuad (s : State) (a : Nat) : Quad := s.planeQuad (a / 2 * 2) .word

/-- The pattern term where no colour is selected: the source quad when `egc_regload[0] = 1`, else the tile registers
(R295). -/
def State.patternPlain (s : State) : Quad := if s.cfg.egc.regload.getLsbD 0 then s.egcSrc else s.tile

/-- The pattern term (R295). -/
def State.patternQuad (s : State) : Quad :=
  match s.cfg.egc.fgc.toNat with
  | 1 => s.cfg.egc.bgcm
  | 2 => s.cfg.egc.fgcm
  | _ => s.patternPlain

/-! ### The Boolean-Combination Table (R288 to R298) -/

/-- A product term that a bit of the code enables (R297). -/
def term (on : Bool) (x : Half) : Half := if on then x else 0x0000#16

/-- Entry 0xC0 on one plane (R290). -/
def ropC0 (s d : Half) : Half := s &&& d

/-- Entry 0xF0 on one plane (R291). -/
def ropF0 (s _d : Half) : Half := s

/-- Entry 0xFC on one plane (R292). -/
def ropFC (s d : Half) : Half := s ||| (~~~s &&& d)

/-- The 4-term form on one plane, by the 4-term column of R297 (R293). -/
def ropFour (c : Byte) (s d : Half) : Half :=
  term (c.getLsbD 7) (s &&& d) ||| term (c.getLsbD 5) (s &&& ~~~d) ||| term (c.getLsbD 3) (~~~s &&& d) |||
    term (c.getLsbD 1) (~~~s &&& ~~~d)

/-- The 8-term form on one plane, gated by the pattern term (R294). -/
def ropEight (c : Byte) (p s d : Half) : Half :=
  term (c.getLsbD 7) (p &&& s &&& d) ||| term (c.getLsbD 6) (~~~p &&& s &&& d) |||
    term (c.getLsbD 5) (p &&& s &&& ~~~d) ||| term (c.getLsbD 4) (~~~p &&& s &&& ~~~d) |||
    term (c.getLsbD 3) (p &&& ~~~s &&& d) ||| term (c.getLsbD 2) (~~~p &&& ~~~s &&& d) |||
    term (c.getLsbD 1) (p &&& ~~~s &&& ~~~d) ||| term (c.getLsbD 0) (~~~p &&& ~~~s &&& ~~~d)

/-- A two-operand entry on all four planes: source quad and destination words (R288). -/
def State.ropQuad (s : State) (f : Half → Half → Half) (a : Nat) : Quad :=
  Quad.ofFn fun p => f (s.egcSrc.get p) ((s.destQuad a).get p)

/-- The pattern-gated entry on all four planes (R294). -/
def State.ropPat (s : State) (code : Byte) (a : Nat) : Quad :=
  Quad.ofFn fun p => ropEight code (s.patternQuad.get p) (s.egcSrc.get p) ((s.destQuad a).get p)

/-- A stub entry: logged once, the snapshot returned (R296, R327). -/
def State.ropStub (s : State) (code : Byte) : Quad × State := (s.egcLast, s.logOnce .egcRop code)

/-- `RopEntry(code)` (R288): the four named entries, the pattern-gated entry where the parameter names it, and the stub
for every other code (R114, R296). -/
def State.ropEntry (s : State) (code : Byte) (a : Nat) : Quad × State :=
  if code = 0xC0#8 then (s.ropQuad ropC0 a, s)
  else if code = 0xF0#8 then (s.ropQuad ropF0 a, s)
  else if code = 0xFC#8 then (s.ropQuad ropFC a, s)
  else if code = 0x0C#8 then (s.ropQuad (ropFour 0x0C#8) a, s)
  else if s.plat.patCode = some code then (s.ropPat code a, s)
  else s.ropStub code

/-! ### Light sources (R282 to R287) -/

/-- What a light source gives: `EgcData`, `MaskEf` and the state after it (R31). -/
structure Light where
  data : Quad
  mask : Half
  state : State

/-- `ShiftCpu()` (R283). -/
def State.shiftCpu (s : State) (a : Nat) (n : PortWidth) (val : Half) : State :=
  if s.cfg.egc.shiftinput then s.shiftThrough n (laneOf a) (Quad.const val) else s

/-- Light source 0, CPU data (R284). -/
def State.light0 (s : State) (n : PortWidth) (val : Half) : Light := ⟨Quad.const (cpuData n val), s.cfg.egc.mask, s⟩

/-- Light source 1, the raster result (R285). -/
def State.light1 (s : State) (a : Nat) (n : PortWidth) (val : Half) : Light :=
  let t := s.shiftCpu a n val
  let r := t.ropEntry t.cfg.egc.rop a
  ⟨r.1, t.shiftedMask, r.2⟩

/-- Light source 2, the palette pattern (R286). -/
def State.light2 (s : State) (a : Nat) (n : PortWidth) (val : Half) : Light :=
  match s.cfg.egc.fgc.toNat with
  | 1 => ⟨s.cfg.egc.bgcm, s.cfg.egc.mask, s⟩
  | 2 => ⟨s.cfg.egc.fgcm, s.cfg.egc.mask, s⟩
  | _ =>
    let t := s.shiftCpu a n val
    ⟨t.egcSrc, t.shiftedMask, t⟩

/-- Light source 3, treated as light source 0 (R287). -/
def State.light3 (s : State) (n : PortWidth) (val : Half) : Light := s.light0 n val

/-- The light source that `egc_lightsource` selects (R115). -/
def State.light (s : State) (a : Nat) (n : PortWidth) (val : Half) : Light :=
  match s.cfg.egc.lightsource.toNat with
  | 0 => s.light0 n val
  | 1 => s.light1 a n val
  | 2 => s.light2 a n val
  | _ => s.light3 n val

/-! ### Register loads (R300, R305, R306) -/

/-- Register load on write: the tile registers take the planes' content (R300). -/
def State.tilesFromVram (s : State) (a : Nat) (n : PortWidth) : State :=
  s.setTile (Quad.putSel n (laneOf a) s.tile (s.planeQuad a n))

/-- The snapshot of an EGC read (R305). -/
def State.snapshot (s : State) (a : Nat) (n : PortWidth) : State :=
  s.setEgcLast (Quad.putSel n (laneOf a) s.egcLast (s.planeQuad a n))

/-- The accessed part of every word of a quad. -/
def Quad.selAll (n : PortWidth) (ln : Bool) (q : Quad) : Quad := Quad.ofFn fun p => sel n ln (q.get p)

/-- Register load on read: the tile registers take the snapshot (R306). -/
def State.tilesFromLast (s : State) (a : Nat) (n : PortWidth) : State :=
  s.setTile (Quad.putSel n (laneOf a) s.tile (Quad.selAll n (laneOf a) s.egcLast))

/-! ### The EGC write (R280, R289) and read (R304, R307, R308) -/

/-- The write-back of one plane (R289): nothing where the plane is excluded. -/
def State.writeBackPlane (s : State) (a : Nat) (n : PortWidth) (data : Quad) (acc : Half) (p : Plane) : State :=
  if s.cfg.egc.access.getLsbD p.val then s
  else
    let o := s.planeAddr p a
    s.pwrite o n ((s.pread o n &&& ~~~acc) ||| (sel n (laneOf a) (data.get p) &&& acc))

/-- The write-back (R289). -/
def State.writeBack (s : State) (a : Nat) (n : PortWidth) (data : Quad) (maskEf : Half) : State :=
  let acc := sel n (laneOf a) maskEf
  if acc = 0x0000#16 then s else planes.foldl (fun t p => t.writeBackPlane a n data acc p) s

/-- The EGC write (R280). -/
def State.egcWrite (s : State) (a : Nat) (n : PortWidth) (val : Half) : State :=
  let t := if s.cfg.egc.regload.getLsbD 1 then s.tilesFromVram a n else s
  let l := t.light a n val
  l.state.writeBack a n l.data l.mask

/-- The value an EGC read returns, from the state its side effects leave (R307, R308). -/
def State.egcReadValue (s : State) (off : Nat) (n : PortWidth) : Half :=
  let c := s.cfg.egc
  if c.compareLead then
    if c.access.getLsbD c.leadPlane.toNat then 0x0000#16
    else sel n (laneOf (inPlane off)) (s.egcSrc.get c.leadPlane.toFin)
  else s.pread (off + s.vopOffset) n

/-- The state an EGC read leaves (R304): snapshot, register load on read, the Shifter fed from VRAM. -/
def State.egcReadState (s : State) (off : Nat) (n : PortWidth) : State :=
  let a := inPlane off
  let t := s.snapshot a n
  let u := if t.cfg.egc.regload.getLsbD 0 then t.tilesFromLast a n else t
  if u.cfg.egc.shiftinput then u else u.shiftThrough n (laneOf a) (Quad.selAll n (laneOf a) u.egcLast)

/-- The EGC read (R304). -/
def State.egcRead (s : State) (off : Nat) (n : PortWidth) : Half × State :=
  let t := s.egcReadState off n
  (t.egcReadValue off n, t)

/-! ### Meanings of the EGCROP rows -/

/-- `EGCROP.C0` (R290). -/
def execEgcropC0 (a : BitVec 15) (s : State) : Result := .next (s.setOut (.quad (s.ropQuad ropC0 a.toNat)))

/-- `EGCROP.F0` (R291). -/
def execEgcropF0 (a : BitVec 15) (s : State) : Result := .next (s.setOut (.quad (s.ropQuad ropF0 a.toNat)))

/-- `EGCROP.FC` (R292). -/
def execEgcropFC (a : BitVec 15) (s : State) : Result := .next (s.setOut (.quad (s.ropQuad ropFC a.toNat)))

/-- `EGCROP.0C` (R293). -/
def execEgcrop0C (a : BitVec 15) (s : State) : Result := .next (s.setOut (.quad (s.ropQuad (ropFour 0x0C#8) a.toNat)))

/-- `EGCROP.PAT` (R294): the entry exists only for the code that the parameter names; any other code is a stub (log
entry 8). -/
def execEgcropPat (code : Byte) (a : BitVec 15) (s : State) : Result :=
  if s.plat.patCode = some code then .next (s.setOut (.quad (s.ropPat code a.toNat)))
  else
    let r := s.ropStub code
    .next (r.2.setOut (.quad r.1))

/-- `EGCROP.STUB` (R296); neither address nor destination enters the result. -/
def execEgcropStub (code : Byte) (_a : BitVec 15) (s : State) : Result :=
  let r := s.ropStub code
  .next (r.2.setOut (.quad r.1))

/-! ### Meanings of the LSRC rows (log entries 21, 25) -/

/-- `EGC.LS0` (R284). -/
def execEgcLs0 (a : BitVec 15) (n : PortWidth) (val : Half) (s : State) : Result :=
  let l := s.light0 n val
  aligned n a.toNat (.next (l.state.setOut (.egc l.data l.mask)))

/-- `EGC.LS1` (R285). -/
def execEgcLs1 (a : BitVec 15) (n : PortWidth) (val : Half) (s : State) : Result :=
  let l := s.light1 a.toNat n val
  aligned n a.toNat (.next (l.state.setOut (.egc l.data l.mask)))

/-- `EGC.LS2` (R286). -/
def execEgcLs2 (a : BitVec 15) (n : PortWidth) (val : Half) (s : State) : Result :=
  let l := s.light2 a.toNat n val
  aligned n a.toNat (.next (l.state.setOut (.egc l.data l.mask)))

/-- `EGC.LS3` (R287). -/
def execEgcLs3 (a : BitVec 15) (n : PortWidth) (val : Half) (s : State) : Result :=
  let l := s.light3 n val
  aligned n a.toNat (.next (l.state.setOut (.egc l.data l.mask)))

/-! ### Meanings of the FGC rows -/

/-- `EGC.FGC0`: the source/shift result or the tile registers (R295). -/
def execEgcFgc0 (s : State) : Result := .next (s.setOut (.quad s.patternPlain))

/-- `EGC.FGC1`: the background-colour expansion (R295). -/
def execEgcFgc1 (s : State) : Result := .next (s.setOut (.quad s.cfg.egc.bgcm))

/-- `EGC.FGC2`: the foreground-colour expansion (R295). -/
def execEgcFgc2 (s : State) : Result := .next (s.setOut (.quad s.cfg.egc.fgcm))

/-- `EGC.FGC3`: as value 0 (R295). -/
def execEgcFgc3 (s : State) : Result := .next (s.setOut (.quad s.patternPlain))

/-! ### Meanings of the REGLOAD rows (log entries 21, 24) -/

/-- `EGC.RL.NONE`: no load (R117). -/
def execEgcRlNone (s : State) : Result := .next (s.setOut .none)

/-- `EGC.RL.READ`: the tile registers take the snapshot (R306); with value 3 of the field, load-on-write follows (R117,
R300). -/
def execEgcRlRead (both : Bool) (a : BitVec 15) (n : PortWidth) (s : State) : Result :=
  let t := s.tilesFromLast a.toNat n
  let u := if both then t.tilesFromVram a.toNat n else t
  aligned n a.toNat (.next (u.setOut .none))

/-- `EGC.RL.WRITE`: the tile registers take the planes' content (R300). -/
def execEgcRlWrite (a : BitVec 15) (n : PortWidth) (s : State) : Result :=
  aligned n a.toNat (.next ((s.tilesFromVram a.toNat n).setOut .none))

end Sys2Proof.Machine
end

