-- ==== Sys2Proof/Machine/Pc98.lean ====
section
/-! DEFINITION. The PC-98-style Memory Decoder (43_pc98_decoder.md), its bus wrapper (R77), and the meanings of the
REGION and VOP rows and of the BUS rows of tag `PC98`. -/

namespace Sys2Proof.Machine

/-! ### MSW window and text regions (R214 to R221) -/

/-- A read of the MSW window (R214). -/
def State.mswRead (s : State) (addr : Word) : Half := (s.cfg.pc98.msw[mswIndex addr]).setWidth 16

/-- A read of attribute RAM: an odd byte reads all ones, an even word's high byte is forced to 0xFF (R218). -/
def State.attrRead (s : State) (off : Nat) : PortWidth → Half
  | .byte => if off % 2 = 1 then 0x00FF#16 else (s.vbyte off).setWidth 16
  | .word => (s.vbyte off).setWidth 16 ||| 0xFF00#16

/-- A write of attribute RAM: an odd byte is ignored, an even word's high byte is stored as 0xFF (R219). -/
def State.attrWrite (s : State) (off : Nat) (n : PortWidth) (v : Half) : State :=
  match n with
  | .byte => if off % 2 = 1 then s else s.putByte off (v.setWidth 8)
  | .word => s.putHalf off ((v &&& 0x00FF#16) ||| 0xFF00#16)

/-- All ones in the width of an access (R221). -/
def allOnes : PortWidth → Half
  | .byte => 0x00FF#16
  | .word => 0xFFFF#16

/-! ### Pass-through and tile modes (R224 to R232) -/

/-- Pass-through read (R224). -/
def State.passRead (s : State) (off : Nat) (n : PortWidth) : Half := s.pread (off + s.vopOffset) n

/-- Pass-through write (R225). -/
def State.passWrite (s : State) (off : Nat) (n : PortWidth) (v : Half) : State := s.pwrite (off + s.vopOffset) n v

/-- The tile operand of a plane: the register for a word, its low byte for a byte at either parity (R119, R226). -/
def tileTerm (n : PortWidth) (t : Half) : Half :=
  match n with
  | .word => t
  | .byte => (getLane t false).setWidth 16

/-- Tile-copy read: the mismatches of the participating planes combined by OR, then inverted (R226, R227). -/
def State.tileCopyRead (s : State) (a : Nat) (n : PortWidth) : Half :=
  cutTo n (~~~(planes.foldl
    (fun r p =>
      if s.cfg.pc98.chEn.getLsbD p.val then r ||| (s.pread (s.planeAddr p a) n ^^^ tileTerm n (s.tile.get p)) else r)
    0x0000#16))

/-- Tile replication on a word-wide tile write: the plane's low tile byte copied into its high byte (R229). -/
def State.replicate (s : State) (n : PortWidth) (p : Plane) : State :=
  match n with
  | .byte => s
  | .word =>
    s.setTile (Quad.ofFn fun q =>
      if q = p then getLane (s.tile.get p) false ++ getLane (s.tile.get p) false else s.tile.get q)

/-- Tile-copy write of one plane (R228). -/
def State.tileCopyPlane (s : State) (a : Nat) (n : PortWidth) (p : Plane) : State :=
  if s.cfg.pc98.chEn.getLsbD p.val then
    let t := s.replicate n p
    t.pwrite (t.planeAddr p a) n (tileTerm n (t.tile.get p))
  else s

/-- Tile-copy write; the host value is ignored (R228). -/
def State.tileCopyWrite (s : State) (a : Nat) (n : PortWidth) : State :=
  planes.foldl (fun t p => t.tileCopyPlane a n p) s

/-- Tile-mask write of one plane (R232). -/
def State.tileMaskPlane (s : State) (a : Nat) (n : PortWidth) (val : Half) (p : Plane) : State :=
  if s.cfg.pc98.chEn.getLsbD p.val then
    let t := s.replicate n p
    let o := t.planeAddr p a
    t.pwrite o n ((t.pread o n &&& ~~~val) ||| (val &&& tileTerm n (t.tile.get p)))
  else s

/-- Tile-mask write (R232). -/
def State.tileMaskWrite (s : State) (a : Nat) (n : PortWidth) (val : Half) : State :=
  planes.foldl (fun t p => t.tileMaskPlane a n val p) s

/-! ### Graphics dispatch (R222, R233, R234) -/

/-- The raw pass-through fallback of an unassigned `vop_mode`, logged once (R234, R326); unreachable through the 4-bit
field (R113). -/
def State.vopUnassigned (s : State) : State := s.logOnce .vramOpMode (s.cfg.pc98.vopMode.setWidth 8)

/-- A graphics read by `vop_mode` (R112, R222). -/
def State.graphicsRead (s : State) (off : Nat) (n : PortWidth) : Half × State :=
  match s.cfg.pc98.vopMode.toNat with
  | 0x0 | 0x1 | 0x2 | 0x3 | 0x4 | 0x5 | 0x6 | 0x7 => (s.passRead off n, s)
  | 0x8 | 0x9 => (s.tileCopyRead (inPlane off) n, s)
  | 0xC | 0xD => (s.passRead off n, s)
  | 0xA | 0xB | 0xE | 0xF => s.egcRead off n
  | _ => (s.passRead off n, s.vopUnassigned)

/-- A graphics write by `vop_mode` (R112, R222). -/
def State.graphicsWrite (s : State) (off : Nat) (n : PortWidth) (v : Half) : State :=
  match s.cfg.pc98.vopMode.toNat with
  | 0x0 | 0x1 | 0x2 | 0x3 | 0x4 | 0x5 | 0x6 | 0x7 => s.passWrite off n v
  | 0x8 | 0x9 => s.tileCopyWrite (inPlane off) n
  | 0xC | 0xD => s.tileMaskWrite (inPlane off) n v
  | 0xA | 0xB | 0xE | 0xF => s.egcWrite (inPlane off) n v
  | _ => s.vopUnassigned.passWrite off n v

/-! ### Decoder accesses (R210, R212) and the wrapper (R77) -/

/-- A decoder read of width `n`: alignment check, MSW test, fold, region (R121, R212). -/
def decoderRead (n : PortWidth) (addr : Word) (s : State) : PortResult :=
  aligned n addr.toNat <|
    match regionOf addr with
    | .msw => .next (s.mswRead addr, s)
    | .char => .next (s.pread (fold addr) n, s)
    | .attr => .next (s.attrRead (fold addr) n, s)
    | .unknown => .next (s.pread (fold addr) n, s)
    | .absent => .next (allOnes n, s)
    | .graphics => .next (s.graphicsRead (fold addr) n)

/-- A decoder write of width `n` (R212). -/
def decoderWrite (n : PortWidth) (addr : Word) (v : Half) (s : State) : Result :=
  aligned n addr.toNat <|
    match regionOf addr with
    | .msw => .next s
    | .char => .next (s.pwrite (fold addr) n v)
    | .attr => .next (s.attrWrite (fold addr) n v)
    | .unknown => .next (s.pwrite (fold addr) n v)
    | .absent => .next s
    | .graphics => .next (s.graphicsWrite (fold addr) n v)

/-- The bytes of a decoder access. -/
def portBytes : PortWidth → Nat
  | .byte => 1
  | .word => 2

/-- `k` decoder reads of width `n` at consecutive addresses, low address first, assembled little-endian (R77). -/
def decoderReads (n : PortWidth) : Nat → Word → State → ReadResult
  | 0, _, s => .next (0#32, s)
  | k + 1, addr, s =>
    andThen (decoderRead n addr s) fun r =>
      andThen (decoderReads n k (addr + BitVec.ofNat 32 (portBytes n)) r.2) fun q =>
        .next ((q.1 <<< (8 * portBytes n)) ||| r.1.setWidth 32, q.2)

/-- `k` decoder writes of width `n` at consecutive addresses, low address first (R77). -/
def decoderWrites (n : PortWidth) : Nat → Word → Word → State → Result
  | 0, _, _, s => .next s
  | k + 1, addr, data, s =>
    andThen (decoderWrite n addr (cutTo n (data.setWidth 16)) s) fun t =>
      decoderWrites n k (addr + BitVec.ofNat 32 (portBytes n)) (data >>> (8 * portBytes n)) t

/-- The decoder accesses the wrapper turns a bus transaction into, their width and their number (R77). -/
def wrapperSplit (w : Width) (addr : Word) : PortWidth × Nat :=
  match w with
  | .byte => (.byte, 1)
  | .word => if addr.toNat % 2 = 1 then (.byte, 2) else (.word, 1)
  | .dword => if addr.toNat % 2 = 1 then (.byte, 4) else (.word, 2)

/-- A bus read served by `PC98`, through the wrapper; one debit for the transaction (R77, R120, R370). -/
def pc98Read (w : Width) (addr : Word) (s : State) : ReadResult :=
  decoderReads (wrapperSplit w addr).1 (wrapperSplit w addr).2 addr s.debitRead

/-- A bus write served by `PC98`, through the wrapper (R77). -/
def pc98Write (w : Width) (addr data : Word) (s : State) : Result :=
  decoderWrites (wrapperSplit w addr).1 (wrapperSplit w addr).2 addr data s.debitWrite

/-- The decoder accesses of a transaction presented directly: widths 1 and 2 enter as they are, a doubleword is split
by the wrapper (R74, R212, log entry 20). -/
def directSplit (w : Width) (addr : Word) : PortWidth × Nat :=
  match w with
  | .byte => (.byte, 1)
  | .word => (.word, 1)
  | .dword => wrapperSplit .dword addr

/-! ### Meanings of the BUS rows of tag `PC98` -/

/-- `PC98.RD` (R212). -/
def execPc98Rd (w : Width) (addr : Word) (s : State) : Result :=
  finishRead w (decoderReads (directSplit w addr).1 (directSplit w addr).2 addr s.debitRead)

/-- `PC98.WR` (R212). -/
def execPc98Wr (w : Width) (addr data : Word) (s : State) : Result :=
  finishWrite (decoderWrites (directSplit w addr).1 (directSplit w addr).2 addr data s.debitWrite)

/-! ### Meanings of the REGION rows

A row run on its own takes its meaning at the region offset of whatever address it is given, in its region or not; the
decoder reaches it only at addresses of its region (R110). That is the model's choice (log entry 40); the alignment check
is log entry 21. -/

/-- `PC98.MSW.RD` (R214; at an address outside its region log entry 40). -/
def execPc98MswRd (n : PortWidth) (addr : Word) (s : State) : Result :=
  aligned n addr.toNat (.next (s.setOut (Out.ofPort n (s.mswRead addr))))

/-- `PC98.MSW.WR`: silently ignored (R215; at an address outside its region log entry 40). -/
def execPc98MswWr (n : PortWidth) (addr : Word) (_v : Half) (s : State) : Result :=
  aligned n addr.toNat (.next (s.setOut .none))

/-- `PC98.CHAR.RD` (R216; at an address outside its region log entry 40). -/
def execPc98CharRd (n : PortWidth) (addr : Word) (s : State) : Result :=
  aligned n addr.toNat (.next (s.setOut (Out.ofPort n (s.pread (fold addr) n))))

/-- `PC98.CHAR.WR` (R217; at an address outside its region log entry 40). -/
def execPc98CharWr (n : PortWidth) (addr : Word) (v : Half) (s : State) : Result :=
  aligned n addr.toNat (.next ((s.pwrite (fold addr) n v).setOut .none))

/-- `PC98.ATTR.RD` (R218; at an address outside its region log entry 40). -/
def execPc98AttrRd (n : PortWidth) (addr : Word) (s : State) : Result :=
  aligned n addr.toNat (.next (s.setOut (Out.ofPort n (s.attrRead (fold addr) n))))

/-- `PC98.ATTR.WR` (R219; at an address outside its region log entry 40). -/
def execPc98AttrWr (n : PortWidth) (addr : Word) (v : Half) (s : State) : Result :=
  aligned n addr.toNat (.next ((s.attrWrite (fold addr) n v).setOut .none))

/-- `PC98.UNKNOWN.RD` (R220; at an address outside its region log entry 40). -/
def execPc98UnknownRd (n : PortWidth) (addr : Word) (s : State) : Result :=
  aligned n addr.toNat (.next (s.setOut (Out.ofPort n (s.pread (fold addr) n))))

/-- `PC98.UNKNOWN.WR` (R220; at an address outside its region log entry 40). -/
def execPc98UnknownWr (n : PortWidth) (addr : Word) (v : Half) (s : State) : Result :=
  aligned n addr.toNat (.next ((s.pwrite (fold addr) n v).setOut .none))

/-- `PC98.ABSENT.RD`: all ones (R221; at an address outside its region log entry 40). -/
def execPc98AbsentRd (n : PortWidth) (addr : Word) (s : State) : Result :=
  aligned n addr.toNat (.next (s.setOut (Out.ofPort n (allOnes n))))

/-- `PC98.ABSENT.WR`: ignored (R221; at an address outside its region log entry 40). -/
def execPc98AbsentWr (n : PortWidth) (addr : Word) (_v : Half) (s : State) : Result :=
  aligned n addr.toNat (.next (s.setOut .none))

/-- `PC98.GRAPHICS.RD` (R222; at an address outside its region log entry 40). -/
def execPc98GraphicsRd (n : PortWidth) (addr : Word) (s : State) : Result :=
  let r := s.graphicsRead (fold addr) n
  aligned n addr.toNat (.next (r.2.setOut (Out.ofPort n r.1)))

/-- `PC98.GRAPHICS.WR` (R222; at an address outside its region log entry 40). -/
def execPc98GraphicsWr (n : PortWidth) (addr : Word) (v : Half) (s : State) : Result :=
  aligned n addr.toNat (.next ((s.graphicsWrite (fold addr) n v).setOut .none))

/-! ### Meanings of the VOP rows; the free bits of `vop_mode` are not distinguished (R224 to R233)

A row run on its own has the mode of the row, whatever `vop_mode` holds, and takes any 18-bit offset, in the graphics
region or not: the model's choice (log entry 41); the alignment check is log entry 21. -/

/-- `VOP.PASS.RD` (R224; mode and offset log entry 41). -/
def execVopPassRd (_mode : BitVec 3) (n : PortWidth) (off : BitVec 18) (s : State) : Result :=
  aligned n off.toNat (.next (s.setOut (Out.ofPort n (s.passRead off.toNat n))))

/-- `VOP.PASS.WR` (R225; mode and offset log entry 41). -/
def execVopPassWr (_mode : BitVec 3) (n : PortWidth) (off : BitVec 18) (v : Half) (s : State) : Result :=
  aligned n off.toNat (.next ((s.passWrite off.toNat n v).setOut .none))

/-- `VOP.TILE_COPY.RD` (R226; mode and offset log entry 41). -/
def execVopTileCopyRd (_mode : BitVec 1) (n : PortWidth) (off : BitVec 18) (s : State) : Result :=
  aligned n off.toNat (.next (s.setOut (Out.ofPort n (s.tileCopyRead (inPlane off.toNat) n))))

/-- `VOP.TILE_COPY.WR` (R228; mode and offset log entry 41). -/
def execVopTileCopyWr (_mode : BitVec 1) (n : PortWidth) (off : BitVec 18) (_v : Half) (s : State) : Result :=
  aligned n off.toNat (.next ((s.tileCopyWrite (inPlane off.toNat) n).setOut .none))

/-- `VOP.TILE_MASK.RD`: a pass-through (R230; mode and offset log entry 41). -/
def execVopTileMaskRd (_mode : BitVec 1) (n : PortWidth) (off : BitVec 18) (s : State) : Result :=
  aligned n off.toNat (.next (s.setOut (Out.ofPort n (s.passRead off.toNat n))))

/-- `VOP.TILE_MASK.WR` (R232; mode and offset log entry 41). -/
def execVopTileMaskWr (_mode : BitVec 1) (n : PortWidth) (off : BitVec 18) (v : Half) (s : State) : Result :=
  aligned n off.toNat (.next ((s.tileMaskWrite (inPlane off.toNat) n v).setOut .none))

/-- `VOP.EGC.RD` (R304; mode and offset log entry 41). -/
def execVopEgcRd (_mode : BitVec 2) (n : PortWidth) (off : BitVec 18) (s : State) : Result :=
  let r := s.egcRead off.toNat n
  aligned n off.toNat (.next (r.2.setOut (Out.ofPort n r.1)))

/-- `VOP.EGC.WR` (R280; mode and offset log entry 41). -/
def execVopEgcWr (_mode : BitVec 2) (n : PortWidth) (off : BitVec 18) (v : Half) (s : State) : Result :=
  aligned n off.toNat (.next ((s.egcWrite (inPlane off.toNat) n v).setOut .none))

end Sys2Proof.Machine
end

