-- ==== Sys2Proof/Machine/Bus.lean ====
section
/-! DEFINITION. Serving a bus transaction (R15, R202): the lookup of the handler, the split at a page boundary, and the
meanings of the six transaction rows. -/

namespace Sys2Proof.Machine

/-! ### One delivery to one handler -/

/-- A read delivered to a handler (R104). -/
def serveRead (h : Tag) (w : Width) (addr : Word) (s : State) : ReadResult :=
  match h with
  | .unmapped => refuseUnmapped
  | .unchained => .next (unchainedRead w addr s)
  | .chainedEga => .next (chainedEgaRead w addr s)
  | .chainedVga => .next (chainedVgaRead w addr s)
  | .chainedVgaSlow => .next (chainedVgaSlowRead w addr s)
  | .chainedVgaEt4k => .next (chainedVgaEt4kRead w addr s)
  | .chainedVgaEt4kSlow => .next (chainedVgaEt4kSlowRead w addr s)
  | .linear => .next (linearTagRead w addr s)
  | .pc98 => pc98Read w addr s
  | .text => refuseLegacy
  | .cgaSnowText => refuseLegacy
  | .hercules => refuseLegacy
  | .tandy => refuseLegacy
  | .pcjr => refuseLegacy
  | .amstrad => refuseLegacy

/-- A write delivered to a handler (R104). -/
def serveWrite (h : Tag) (w : Width) (addr data : Word) (s : State) : Result :=
  match h with
  | .unmapped => refuseUnmapped
  | .unchained => .next (unchainedWrite w addr data s)
  | .chainedEga => .next (chainedEgaWrite w addr data s)
  | .chainedVga => .next (chainedVgaWrite w addr data s)
  | .chainedVgaSlow => .next (chainedVgaSlowWrite w addr data s)
  | .chainedVgaEt4k => .next (chainedVgaEt4kWrite w addr data s)
  | .chainedVgaEt4kSlow => .next (chainedVgaEt4kSlowWrite w addr data s)
  | .linear => .next (linearTagWrite w addr data s)
  | .pc98 => pc98Write w addr data s
  | .text => refuseLegacy
  | .cgaSnowText => refuseLegacy
  | .hercules => refuseLegacy
  | .tandy => refuseLegacy
  | .pcjr => refuseLegacy
  | .amstrad => refuseLegacy

/-! ### The lookup and the split (R202) -/

/-- `Bound[addr >> 12]` (R202). -/
def State.handlerAt (s : State) (addr : Word) : Tag := s.binding.handler (pageOf addr)

/-- Are two addresses served under the same binding: the same tag, and the same side of the linear framebuffer
window? -/
def State.sameBinding (s : State) (x y : Word) : Bool :=
  s.handlerAt x == s.handlerAt y && (s.lfbOf x).isSome == (s.lfbOf y).isSome

/-- The parts of a transaction, their width and their number: one part where all its bytes lie under one binding; else
the bus splits it at the page boundary, into words where the boundary falls in the middle of a doubleword at an even
address, into bytes otherwise (R202, log entry 14). -/
def State.busSplit (s : State) (w : Width) (addr : Word) : Width × Nat :=
  if s.sameBinding addr (addr + BitVec.ofNat 32 (widthBytes w - 1)) then (w, 1)
  else
    match w with
    | .byte => (.byte, 1)
    | .word => (.byte, 2)
    | .dword => if addr.toNat % 2 = 1 then (.byte, 4) else (.word, 2)

/-- `k` parts of a read, low address first, each looked up on its own; the results assembled little-endian. -/
def readParts (w : Width) : Nat → Word → State → ReadResult
  | 0, _, s => .next (0#32, s)
  | k + 1, addr, s =>
    andThen (serveRead (s.handlerAt addr) w addr s) fun r =>
      andThen (readParts w k (addr + BitVec.ofNat 32 (widthBytes w)) r.2) fun q =>
        .next ((q.1 <<< (8 * widthBytes w)) ||| r.1, q.2)

/-- `k` parts of a write, low address first, each looked up on its own. -/
def writeParts (w : Width) : Nat → Word → Word → State → Result
  | 0, _, _, s => .next s
  | k + 1, addr, data, s =>
    andThen (serveWrite (s.handlerAt addr) w addr data s) fun t =>
      writeParts w k (addr + BitVec.ofNat 32 (widthBytes w)) (data >>> (8 * widthBytes w)) t

/-- `MemRead(addr, n)` (R15, R202). -/
def memRead (w : Width) (addr : Word) (s : State) : ReadResult :=
  readParts (s.busSplit w addr).1 (s.busSplit w addr).2 addr s

/-- `MemWrite(addr, n, v)` (R15, R202). -/
def memWrite (w : Width) (addr data : Word) (s : State) : Result :=
  writeParts (s.busSplit w addr).1 (s.busSplit w addr).2 addr data s

/-! ### Meanings -/

/-- `RD8` (R101, R202). -/
def execRd8 (addr : Word) (s : State) : Result := finishRead .byte (memRead .byte addr s)

/-- `RD16` (R101, R202). -/
def execRd16 (addr : Word) (s : State) : Result := finishRead .word (memRead .word addr s)

/-- `RD32` (R101, R202). -/
def execRd32 (addr : Word) (s : State) : Result := finishRead .dword (memRead .dword addr s)

/-- `WR8` (R101, R202). -/
def execWr8 (addr : Word) (v : Byte) (s : State) : Result := finishWrite (memWrite .byte addr (v.setWidth 32) s)

/-- `WR16` (R101, R202). -/
def execWr16 (addr : Word) (v : Half) (s : State) : Result := finishWrite (memWrite .word addr (v.setWidth 32) s)

/-- `WR32` (R101, R202). -/
def execWr32 (addr : Word) (v : Word) (s : State) : Result := finishWrite (memWrite .dword addr v s)

end Sys2Proof.Machine
end

