-- ==== Sys2Proof/Machine/Env.lean ====
section
/-! DEFINITION. The environment operations (R102, R103): CFG, RESET, TILE_LOAD. -/

namespace Sys2Proof.Machine

/-! ### CFG (R103) -/

/-- The display mode of a value of R103; a value R103 does not list is a mode the source does not list, `OTHER` (R38,
log entry 10). -/
def DisplayMode.ofCode : Nat → DisplayMode
  | 0 => .text
  | 1 => .cga2
  | 2 => .cga4
  | 3 => .ega
  | 4 => .vga8
  | 5 => .lin15
  | 6 => .lin16
  | 7 => .lin24
  | 8 => .lin32
  | 9 => .pc98
  | _ => .other

/-- A configuration with one field replaced; the value is truncated to the field's width (R34, R39, R40, R103). The
numbers of the Bank Window are not bit fields and are taken as they are (R36, log entry 11). -/
def ExtConfig.put (c : ExtConfig) (f : CfgField) (v : Word) : ExtConfig :=
  match f with
  | .writeMode => { c with planar := { c.planar with writeMode := v.setWidth 8 } }
  | .readMode => { c with planar := { c.planar with readMode := v.getLsbD 0 } }
  | .rasterOp => { c with planar := { c.planar with rasterOp := v.setWidth 2 } }
  | .bitMask => { c with planar := { c.planar with bitMask := v.setWidth 8 } }
  | .mapMask => { c with planar := { c.planar with mapMask := v.setWidth 4 } }
  | .dataRotate => { c with planar := { c.planar with dataRotate := v.setWidth 3 } }
  | .setReset => { c with planar := { c.planar with setReset := v.setWidth 4 } }
  | .enableSetReset => { c with planar := { c.planar with enableSetReset := v.setWidth 4 } }
  | .colorCompare => { c with planar := { c.planar with colorCompare := v.setWidth 4 } }
  | .colorDontCare => { c with planar := { c.planar with colorDontCare := v.setWidth 4 } }
  | .readMapSelect => { c with planar := { c.planar with readMapSelect := v.setWidth 2 } }
  | .oddEven => { c with planar := { c.planar with oddEven := v.getLsbD 0 } }
  | .chained => { c with disp := { c.disp with chained := v.getLsbD 0 } }
  | .compatibleChain4 => { c with disp := { c.disp with compatibleChain4 := v.getLsbD 0 } }
  | .bankRead => { c with disp := { c.disp with bankRead := v.toNat } }
  | .bankWrite => { c with disp := { c.disp with bankWrite := v.toNat } }
  | .bankSize => { c with disp := { c.disp with bankSize := v.toNat } }
  | .windowSelect => { c with disp := { c.disp with windowSelect := v.setWidth 2 } }
  | .displayMode => { c with disp := { c.disp with displayMode := DisplayMode.ofCode v.toNat } }
  | .vopMode => { c with pc98 := { c.pc98 with vopMode := v.setWidth 4 } }
  | .vopAccess => { c with pc98 := { c.pc98 with vopAccess := v.getLsbD 0 } }
  | .analog16 => { c with pc98 := { c.pc98 with analog16 := v.getLsbD 0 } }
  | .chEn => { c with pc98 := { c.pc98 with chEn := v.setWidth 4 } }
  | .msw k => { c with pc98 := { c.pc98 with msw := c.pc98.msw.set k (v.setWidth 8) } }
  | .egcAccess => { c with egc := { c.egc with access := v.setWidth 4 } }
  | .egcFgc => { c with egc := { c.egc with fgc := v.setWidth 2 } }
  | .egcLeadPlane => { c with egc := { c.egc with leadPlane := v.setWidth 2 } }
  | .egcCompareLead => { c with egc := { c.egc with compareLead := v.getLsbD 0 } }
  | .egcLightsource => { c with egc := { c.egc with lightsource := v.setWidth 2 } }
  | .egcShiftinput => { c with egc := { c.egc with shiftinput := v.getLsbD 0 } }
  | .egcRegload => { c with egc := { c.egc with regload := v.setWidth 2 } }
  | .egcRop => { c with egc := { c.egc with rop := v.setWidth 8 } }
  | .egcMask => { c with egc := { c.egc with mask := v.setWidth 16 } }
  | .egcForeground => { c with egc := { c.egc with fgcm := colourQuad (v.setWidth 4) } }
  | .egcBackground => { c with egc := { c.egc with bgcm := colourQuad (v.setWidth 4) } }
  | .shiftDescend => { c with egc := { c.egc with shiftDescend := v.getLsbD 0 } }
  | .shiftLength => { c with egc := { c.egc with shiftLength := v.setWidth 12 } }
  | .shiftSrcbit => { c with egc := { c.egc with shiftSrcbit := v.setWidth 4 } }
  | .shiftDstbit => { c with egc := { c.egc with shiftDstbit := v.setWidth 4 } }

/-- `CFG` (R103): it runs neither `DISPATCH` nor `EGC_REINIT` (R362, R364). -/
def execCfg (f : CfgField) (v : Word) (s : State) : Result := .next ((s.setCfg (s.cfg.put f v)).setOut .none)

/-! ### RESET (R350) and TILE_LOAD (R236) -/

/-- The whole-machine reset (R350): VRAM cleared, the Shifter reinitialised, the handlers dispatched again, the marks
emptied; Latch, tile registers, EGC quads, SrcMask and Shifter buffer are not written (log entry 7). -/
def State.resetAll (s : State) : State := ((s.setVram []).reinit.dispatch).setLogged []

/-- `RESET` (R350). -/
def execReset (s : State) : Result := .next (s.resetAll.setOut .none)

/-- `TILE_LOAD p, v` (R236). -/
def execTileLoad (p : Plane) (v : Half) (s : State) : Result :=
  .next ((s.setTile (Quad.ofFn fun q => if q = p then v else s.tile.get q)).setOut .none)

end Sys2Proof.Machine
end

