-- ==== Sys2Proof/Machine/Dispatch.lean ====
section
/-! DEFINITION. One arm per constructor of `Instr`: the meaning of each instruction, by name. -/

namespace Sys2Proof.Machine

def exec (i : Instr) (s : State) : Host.Outcome State Fault Refusal :=
  match i with
  | .rd8 addr => Sys2Proof.Machine.execRd8 addr s
  | .rd16 addr => Sys2Proof.Machine.execRd16 addr s
  | .rd32 addr => Sys2Proof.Machine.execRd32 addr s
  | .wr8 addr v => Sys2Proof.Machine.execWr8 addr v s
  | .wr16 addr v => Sys2Proof.Machine.execWr16 addr v s
  | .wr32 addr v => Sys2Proof.Machine.execWr32 addr v s
  | .cfg field v => Sys2Proof.Machine.execCfg field v s
  | .dispatch => Sys2Proof.Machine.execDispatch s
  | .reset => Sys2Proof.Machine.execReset s
  | .egcReinit => Sys2Proof.Machine.execEgcReinit s
  | .tileLoad p v => Sys2Proof.Machine.execTileLoad p v s
  | .ropNone input mask => Sys2Proof.Machine.execRopNone input mask s
  | .ropAnd input mask => Sys2Proof.Machine.execRopAnd input mask s
  | .ropOr input mask => Sys2Proof.Machine.execRopOr input mask s
  | .ropXor input mask => Sys2Proof.Machine.execRopXor input mask s
  | .wm0 val => Sys2Proof.Machine.execWm0 val s
  | .wm1 val => Sys2Proof.Machine.execWm1 val s
  | .wm2 val => Sys2Proof.Machine.execWm2 val s
  | .wm3 val => Sys2Proof.Machine.execWm3 val s
  | .wmUnsup mode val => Sys2Proof.Machine.execWmUnsup mode val s
  | .rm0 idx raw plane => Sys2Proof.Machine.execRm0 idx raw plane s
  | .rm1 idx raw plane => Sys2Proof.Machine.execRm1 idx raw plane s
  | .unmappedRd w addr => Sys2Proof.Machine.execUnmappedRd w addr s
  | .unmappedWr w addr data => Sys2Proof.Machine.execUnmappedWr w addr data s
  | .unchainedRd w addr => Sys2Proof.Machine.execUnchainedRd w addr s
  | .unchainedWr w addr data => Sys2Proof.Machine.execUnchainedWr w addr data s
  | .chainedEgaRd w addr => Sys2Proof.Machine.execChainedEgaRd w addr s
  | .chainedEgaWr w addr data => Sys2Proof.Machine.execChainedEgaWr w addr data s
  | .chainedVgaRd w addr => Sys2Proof.Machine.execChainedVgaRd w addr s
  | .chainedVgaWr w addr data => Sys2Proof.Machine.execChainedVgaWr w addr data s
  | .chainedVgaSlowRd w addr => Sys2Proof.Machine.execChainedVgaSlowRd w addr s
  | .chainedVgaSlowWr w addr data => Sys2Proof.Machine.execChainedVgaSlowWr w addr data s
  | .chainedVgaEt4kRd w addr => Sys2Proof.Machine.execChainedVgaEt4kRd w addr s
  | .chainedVgaEt4kWr w addr data => Sys2Proof.Machine.execChainedVgaEt4kWr w addr data s
  | .chainedVgaEt4kSlowRd w addr => Sys2Proof.Machine.execChainedVgaEt4kSlowRd w addr s
  | .chainedVgaEt4kSlowWr w addr data => Sys2Proof.Machine.execChainedVgaEt4kSlowWr w addr data s
  | .linearRd w addr => Sys2Proof.Machine.execLinearRd w addr s
  | .linearWr w addr data => Sys2Proof.Machine.execLinearWr w addr data s
  | .pc98Rd w addr => Sys2Proof.Machine.execPc98Rd w addr s
  | .pc98Wr w addr data => Sys2Proof.Machine.execPc98Wr w addr data s
  | .textRd w addr => Sys2Proof.Machine.execTextRd w addr s
  | .textWr w addr data => Sys2Proof.Machine.execTextWr w addr data s
  | .cgaSnowTextRd w addr => Sys2Proof.Machine.execCgaSnowTextRd w addr s
  | .cgaSnowTextWr w addr data => Sys2Proof.Machine.execCgaSnowTextWr w addr data s
  | .herculesRd w addr => Sys2Proof.Machine.execHerculesRd w addr s
  | .herculesWr w addr data => Sys2Proof.Machine.execHerculesWr w addr data s
  | .tandyRd w addr => Sys2Proof.Machine.execTandyRd w addr s
  | .tandyWr w addr data => Sys2Proof.Machine.execTandyWr w addr data s
  | .pcjrRd w addr => Sys2Proof.Machine.execPcjrRd w addr s
  | .pcjrWr w addr data => Sys2Proof.Machine.execPcjrWr w addr data s
  | .amstradRd w addr => Sys2Proof.Machine.execAmstradRd w addr s
  | .amstradWr w addr data => Sys2Proof.Machine.execAmstradWr w addr data s
  | .pc98MswRd n addr => Sys2Proof.Machine.execPc98MswRd n addr s
  | .pc98MswWr n addr v => Sys2Proof.Machine.execPc98MswWr n addr v s
  | .pc98CharRd n addr => Sys2Proof.Machine.execPc98CharRd n addr s
  | .pc98CharWr n addr v => Sys2Proof.Machine.execPc98CharWr n addr v s
  | .pc98AttrRd n addr => Sys2Proof.Machine.execPc98AttrRd n addr s
  | .pc98AttrWr n addr v => Sys2Proof.Machine.execPc98AttrWr n addr v s
  | .pc98UnknownRd n addr => Sys2Proof.Machine.execPc98UnknownRd n addr s
  | .pc98UnknownWr n addr v => Sys2Proof.Machine.execPc98UnknownWr n addr v s
  | .pc98AbsentRd n addr => Sys2Proof.Machine.execPc98AbsentRd n addr s
  | .pc98AbsentWr n addr v => Sys2Proof.Machine.execPc98AbsentWr n addr v s
  | .pc98GraphicsRd n addr => Sys2Proof.Machine.execPc98GraphicsRd n addr s
  | .pc98GraphicsWr n addr v => Sys2Proof.Machine.execPc98GraphicsWr n addr v s
  | .vopPassRd mode n off => Sys2Proof.Machine.execVopPassRd mode n off s
  | .vopPassWr mode n off v => Sys2Proof.Machine.execVopPassWr mode n off v s
  | .vopTileCopyRd mode n off => Sys2Proof.Machine.execVopTileCopyRd mode n off s
  | .vopTileCopyWr mode n off v => Sys2Proof.Machine.execVopTileCopyWr mode n off v s
  | .vopTileMaskRd mode n off => Sys2Proof.Machine.execVopTileMaskRd mode n off s
  | .vopTileMaskWr mode n off v => Sys2Proof.Machine.execVopTileMaskWr mode n off v s
  | .vopEgcRd mode n off => Sys2Proof.Machine.execVopEgcRd mode n off s
  | .vopEgcWr mode n off v => Sys2Proof.Machine.execVopEgcWr mode n off v s
  | .shReinit => Sys2Proof.Machine.execShReinit s
  | .shIn8 q0 q1 q2 q3 odd => Sys2Proof.Machine.execShIn8 q0 q1 q2 q3 odd s
  | .shIn16 q0 q1 q2 q3 => Sys2Proof.Machine.execShIn16 q0 q1 q2 q3 s
  | .shOut8 lane rec => Sys2Proof.Machine.execShOut8 lane rec s
  | .shOut16 => Sys2Proof.Machine.execShOut16 s
  | .shDmask => Sys2Proof.Machine.execShDmask s
  | .egcLs0 a n val => Sys2Proof.Machine.execEgcLs0 a n val s
  | .egcLs1 a n val => Sys2Proof.Machine.execEgcLs1 a n val s
  | .egcLs2 a n val => Sys2Proof.Machine.execEgcLs2 a n val s
  | .egcLs3 a n val => Sys2Proof.Machine.execEgcLs3 a n val s
  | .egcFgc0 => Sys2Proof.Machine.execEgcFgc0 s
  | .egcFgc1 => Sys2Proof.Machine.execEgcFgc1 s
  | .egcFgc2 => Sys2Proof.Machine.execEgcFgc2 s
  | .egcFgc3 => Sys2Proof.Machine.execEgcFgc3 s
  | .egcRlNone => Sys2Proof.Machine.execEgcRlNone s
  | .egcRlRead both a n => Sys2Proof.Machine.execEgcRlRead both a n s
  | .egcRlWrite a n => Sys2Proof.Machine.execEgcRlWrite a n s
  | .egcropC0 a => Sys2Proof.Machine.execEgcropC0 a s
  | .egcropF0 a => Sys2Proof.Machine.execEgcropF0 a s
  | .egcropFC a => Sys2Proof.Machine.execEgcropFC a s
  | .egcrop0C a => Sys2Proof.Machine.execEgcrop0C a s
  | .egcropPat code a => Sys2Proof.Machine.execEgcropPat code a s
  | .egcropStub code a => Sys2Proof.Machine.execEgcropStub code a s
  | .dispUnmapped => Sys2Proof.Machine.execDispUnmapped s
  | .dispUnchained => Sys2Proof.Machine.execDispUnchained s
  | .dispChainedEga => Sys2Proof.Machine.execDispChainedEga s
  | .dispChainedVga => Sys2Proof.Machine.execDispChainedVga s
  | .dispChainedVgaSlow => Sys2Proof.Machine.execDispChainedVgaSlow s
  | .dispChainedVgaEt4k => Sys2Proof.Machine.execDispChainedVgaEt4k s
  | .dispChainedVgaEt4kSlow => Sys2Proof.Machine.execDispChainedVgaEt4kSlow s
  | .dispLinear => Sys2Proof.Machine.execDispLinear s
  | .dispPc98 => Sys2Proof.Machine.execDispPc98 s
  | .dispText => Sys2Proof.Machine.execDispText s
  | .dispCgaSnowText => Sys2Proof.Machine.execDispCgaSnowText s
  | .dispHercules => Sys2Proof.Machine.execDispHercules s
  | .dispTandy => Sys2Proof.Machine.execDispTandy s
  | .dispPcjr => Sys2Proof.Machine.execDispPcjr s
  | .dispAmstrad => Sys2Proof.Machine.execDispAmstrad s
  | .winsel0 h => Sys2Proof.Machine.execWinsel0 h s
  | .winsel1 h => Sys2Proof.Machine.execWinsel1 h s
  | .winsel2 h => Sys2Proof.Machine.execWinsel2 h s
  | .winsel3 h => Sys2Proof.Machine.execWinsel3 h s

end Sys2Proof.Machine
end

