-- ==== Sys2Proof/Machine/Step.lean ====
section
/-! DEFINITION. One step: the next entry of the queue is taken, decoded and run (R10, R32, R352, log entry 1). -/

namespace Sys2Proof.Machine

/-- The instruction of a queue entry. -/
def decodeEntry (pat : Option Byte) : QueueEntry → Except DecodeError Instr
  | .record bytes => decodeRecord bytes
  | .frame bytes => decode pat bytes

/-- One step. With an empty queue the block waits (R352); an entry that decodes to no instruction is
`Refuse(BAD_RECORD)` (R102, R329); otherwise the instruction runs on the state with the entry taken off the queue. -/
def step (s : State) : Host.Outcome State Fault Refusal :=
  match s.input with
  | [] => .next s
  | e :: rest =>
    match decodeEntry s.plat.patCode e with
    | .error why => .refused (.badRecord why)
    | .ok i => exec i (s.setInput rest)

/-- `s` with one selector frame at the head of its queue: the selector word `w` of `nbits` bits, every bit above it 0. -/
def State.withFetchWord (s : State) (nbits w : Nat) : State := s.setInput (.frame (tableBytes nbits w) :: s.input)

end Sys2Proof.Machine
end

