-- ==== Sys2Proof/Safety.lean ====
section
/-! DEFINITION. What a good state is, and the terms in which statements speak: the invariant that every step keeps, the
frame of an instruction, the byte of VRAM at an offset, which tags are served. -/

namespace Sys2Proof.Machine

/-! ### The invariant -/

/-- Every listed address of a memory lies below a bound. -/
def Memory.below (m : Memory) (n : Nat) : Bool := m.all fun c => decide (c.1 < n)

/-- The bounds of the Shifter's registers (R27, R118, R252, R270): phases, shift amounts, cursors, remaining count. -/
structure Shifter.Good (x : Shifter) : Prop where
  remain : x.remain ≤ 4096
  srcbit : x.srcbit < 16
  dstbit : x.dstbit < 16
  oSrcbit : x.oSrcbit < 8
  oDstbit : x.oDstbit < 8
  shl : x.shl < 8
  shr : x.shr < 8
  bufi : x.bufi < 512
  bufo : x.bufo < 512

/-- The invariant of the machine: VRAM and the Shifter's buffer in canonical form and inside their bounds (R21, R28),
the Shifter's registers inside theirs (R27), no diagnostic logged twice (R324). -/
structure State.Inv (s : State) : Prop where
  vramWf : s.vram.wf = true
  vramBelow : s.vram.below s.plat.vmemSize = true
  bufWf : s.buf.wf = true
  bufBelow : s.buf.below 512 = true
  shifter : s.sh.Good
  loggedOnce : s.logged.Nodup

/-! ### Frames -/

/-- The fields of the State, by name. -/
inductive Reg where
  | plat
  | cfg
  | vram
  | latch
  | tile
  | egcSrc
  | egcLast
  | srcMask
  | sh
  | buf
  | logged
  | binding
  | cyclesLeft
  | out
  | input
  deriving DecidableEq, Repr

/-- Two states hold the same value in one field. -/
def State.same (s t : State) : Reg → Prop
  | .plat => t.plat = s.plat
  | .cfg => t.cfg = s.cfg
  | .vram => t.vram = s.vram
  | .latch => t.latch = s.latch
  | .tile => t.tile = s.tile
  | .egcSrc => t.egcSrc = s.egcSrc
  | .egcLast => t.egcLast = s.egcLast
  | .srcMask => t.srcMask = s.srcMask
  | .sh => t.sh = s.sh
  | .buf => t.buf = s.buf
  | .logged => t.logged = s.logged
  | .binding => t.binding = s.binding
  | .cyclesLeft => t.cyclesLeft = s.cyclesLeft
  | .out => t.out = s.out
  | .input => t.input = s.input

/-- `t` differs from `s` at most in the fields named. -/
def State.keepsBut (s : State) (changed : List Reg) (t : State) : Prop := ∀ r, r ∉ changed → s.same t r

/-- The fields of the EGC's data path that an EGC access can change besides VRAM, the tile registers and the snapshot. -/
def shiftRegs : List Reg := [.egcSrc, .srcMask, .sh, .buf]

end Sys2Proof.Machine

namespace Sys2Proof

open Machine

/-- The fields that each instruction may change, from the 'State written' of its rule; every other field is kept. -/
def Instr.writes : Instr → List Reg
  | .rd8 _ => [.latch, .tile, .egcLast, .cyclesLeft, .out] ++ shiftRegs
  | .rd16 _ => [.latch, .tile, .egcLast, .cyclesLeft, .out] ++ shiftRegs
  | .rd32 _ => [.latch, .tile, .egcLast, .cyclesLeft, .out] ++ shiftRegs
  | .wr8 _ _ => [.vram, .tile, .logged, .cyclesLeft, .out] ++ shiftRegs
  | .wr16 _ _ => [.vram, .tile, .logged, .cyclesLeft, .out] ++ shiftRegs
  | .wr32 _ _ => [.vram, .tile, .logged, .cyclesLeft, .out] ++ shiftRegs
  | .cfg _ _ => [.cfg, .out]
  | .dispatch => [.binding, .out]
  | .reset => [.vram, .sh, .binding, .logged, .out]
  | .egcReinit => [.sh, .out]
  | .tileLoad _ _ => [.tile, .out]
  | .ropNone _ _ => [.out]
  | .ropAnd _ _ => [.out]
  | .ropOr _ _ => [.out]
  | .ropXor _ _ => [.out]
  | .wm0 _ => [.out]
  | .wm1 _ => [.out]
  | .wm2 _ => [.out]
  | .wm3 _ => [.out]
  | .wmUnsup _ _ => [.logged, .out]
  | .rm0 _ _ _ => [.latch, .out]
  | .rm1 _ _ _ => [.latch, .out]
  | .unmappedRd _ _ => []
  | .unmappedWr _ _ _ => []
  | .unchainedRd _ _ => [.latch, .cyclesLeft, .out]
  | .unchainedWr _ _ _ => [.vram, .logged, .cyclesLeft, .out]
  | .chainedEgaRd _ _ => [.cyclesLeft, .out]
  | .chainedEgaWr _ _ _ => [.vram, .cyclesLeft, .out]
  | .chainedVgaRd _ _ => [.cyclesLeft, .out]
  | .chainedVgaWr _ _ _ => [.vram, .cyclesLeft, .out]
  | .chainedVgaSlowRd _ _ => [.latch, .cyclesLeft, .out]
  | .chainedVgaSlowWr _ _ _ => [.vram, .logged, .cyclesLeft, .out]
  | .chainedVgaEt4kRd _ _ => [.cyclesLeft, .out]
  | .chainedVgaEt4kWr _ _ _ => [.vram, .cyclesLeft, .out]
  | .chainedVgaEt4kSlowRd _ _ => [.latch, .cyclesLeft, .out]
  | .chainedVgaEt4kSlowWr _ _ _ => [.vram, .logged, .cyclesLeft, .out]
  | .linearRd _ _ => [.cyclesLeft, .out]
  | .linearWr _ _ _ => [.vram, .cyclesLeft, .out]
  | .pc98Rd _ _ => [.tile, .egcLast, .cyclesLeft, .out] ++ shiftRegs
  | .pc98Wr _ _ _ => [.vram, .tile, .logged, .cyclesLeft, .out] ++ shiftRegs
  | .textRd _ _ => []
  | .textWr _ _ _ => []
  | .cgaSnowTextRd _ _ => []
  | .cgaSnowTextWr _ _ _ => []
  | .herculesRd _ _ => []
  | .herculesWr _ _ _ => []
  | .tandyRd _ _ => []
  | .tandyWr _ _ _ => []
  | .pcjrRd _ _ => []
  | .pcjrWr _ _ _ => []
  | .amstradRd _ _ => []
  | .amstradWr _ _ _ => []
  | .pc98MswRd _ _ => [.out]
  | .pc98MswWr _ _ _ => [.out]
  | .pc98CharRd _ _ => [.out]
  | .pc98CharWr _ _ _ => [.vram, .out]
  | .pc98AttrRd _ _ => [.out]
  | .pc98AttrWr _ _ _ => [.vram, .out]
  | .pc98UnknownRd _ _ => [.out]
  | .pc98UnknownWr _ _ _ => [.vram, .out]
  | .pc98AbsentRd _ _ => [.out]
  | .pc98AbsentWr _ _ _ => [.out]
  | .pc98GraphicsRd _ _ => [.tile, .egcLast, .out] ++ shiftRegs
  | .pc98GraphicsWr _ _ _ => [.vram, .tile, .logged, .out] ++ shiftRegs
  | .vopPassRd _ _ _ => [.out]
  | .vopPassWr _ _ _ _ => [.vram, .out]
  | .vopTileCopyRd _ _ _ => [.out]
  | .vopTileCopyWr _ _ _ _ => [.vram, .tile, .out]
  | .vopTileMaskRd _ _ _ => [.out]
  | .vopTileMaskWr _ _ _ _ => [.vram, .tile, .out]
  | .vopEgcRd _ _ _ => [.tile, .egcLast, .out] ++ shiftRegs
  | .vopEgcWr _ _ _ _ => [.vram, .tile, .logged, .out] ++ shiftRegs
  | .shReinit => [.sh, .out]
  | .shIn8 _ _ _ _ _ => [.buf, .sh, .srcMask, .out]
  | .shIn16 _ _ _ _ => [.buf, .sh, .srcMask, .out]
  | .shOut8 _ _ => [.egcSrc, .sh, .srcMask, .out]
  | .shOut16 => [.egcSrc, .sh, .srcMask, .out]
  | .shDmask => [.out]
  | .egcLs0 _ _ _ => [.out]
  | .egcLs1 _ _ _ => [.logged, .out] ++ shiftRegs
  | .egcLs2 _ _ _ => [.out] ++ shiftRegs
  | .egcLs3 _ _ _ => [.out]
  | .egcFgc0 => [.out]
  | .egcFgc1 => [.out]
  | .egcFgc2 => [.out]
  | .egcFgc3 => [.out]
  | .egcRlNone => [.out]
  | .egcRlRead _ _ _ => [.tile, .out]
  | .egcRlWrite _ _ => [.tile, .out]
  | .egcropC0 _ => [.out]
  | .egcropF0 _ => [.out]
  | .egcropFC _ => [.out]
  | .egcrop0C _ => [.out]
  | .egcropPat _ _ => [.logged, .out]
  | .egcropStub _ _ => [.logged, .out]
  | .dispUnmapped => [.binding, .out]
  | .dispUnchained => [.binding, .out]
  | .dispChainedEga => [.binding, .out]
  | .dispChainedVga => [.binding, .out]
  | .dispChainedVgaSlow => [.binding, .out]
  | .dispChainedVgaEt4k => [.binding, .out]
  | .dispChainedVgaEt4kSlow => [.binding, .out]
  | .dispLinear => [.binding, .out]
  | .dispPc98 => [.binding, .out]
  | .dispText => [.binding, .out]
  | .dispCgaSnowText => [.binding, .out]
  | .dispHercules => [.binding, .out]
  | .dispTandy => [.binding, .out]
  | .dispPcjr => [.binding, .out]
  | .dispAmstrad => [.binding, .out]
  | .winsel0 _ => [.binding, .out]
  | .winsel1 _ => [.binding, .out]
  | .winsel2 _ => [.binding, .out]
  | .winsel3 _ => [.binding, .out]

end Sys2Proof

namespace Sys2Proof.Machine

/-! ### VRAM, seen byte by byte -/

/-- The byte of VRAM at offset `x` (R21). -/
def State.vramAt (s : State) (x : Nat) : Byte := s.vram.read x

/-- `x` is none of the `k` byte offsets from `o` on, each wrapped on its own (R14). -/
def State.outside (s : State) (o k x : Nat) : Prop := ∀ j, j < k → x ≠ s.wrap (o + j)

/-- The planes that the map mask enables, R34. -/
def State.planeOn (s : State) (p : Plane) : Bool := s.cfg.planar.mapMask.getLsbD p.val

/-! ### The raster operation on one bit -/

/-- What `RasterOp` gives at one bit position from the selector, the new data bit, the mask bit and the Latch bit: where
the mask bit is 0 the Latch bit, where it is 1 the data bit or its AND, OR, XOR with the Latch bit (R130 to R133). -/
def ropBit (op : BitVec 2) (data mask latch : Bool) : Bool :=
  if mask then
    match op with
    | 0#2 => data
    | 1#2 => data && latch
    | 2#2 => data || latch
    | 3#2 => xor data latch
  else latch

/-- The row of a write mode (R106). -/
def wmRow (mode : Byte) (val : Byte) : Instr :=
  match mode.toNat with
  | 0 => .wm0 val
  | 1 => .wm1 val
  | 2 => .wm2 val
  | 3 => .wm3 val
  | _ => .wmUnsup mode val

/-- The row of a read mode (R108). -/
def rmRow (mode : Bool) (idx : Word) (raw : Bool) (plane : Plane) : Instr :=
  if mode then .rm1 idx raw plane else .rm0 idx raw plane

/-! ### Tags, widths, registers -/

end Sys2Proof.Machine

namespace Sys2Proof

open Machine

/-- The tags whose accesses have a meaning: 1 to 8 (R104). -/
def Tag.served : Tag → Bool
  | .unmapped | .text | .cgaSnowText | .hercules | .tandy | .pcjr | .amstrad => false
  | _ => true

/-- The planar, latched handlers (R75). -/
def Tag.latched : Tag → Bool
  | .unchained | .chainedVgaSlow | .chainedVgaEt4kSlow => true
  | _ => false

/-- The byte-linear handlers (R76). -/
def Tag.byteLinear : Tag → Bool
  | .chainedVga | .chainedVgaEt4k | .chainedEga | .linear => true
  | _ => false

/-- The handlers that `Dispatch` binds by the legacy window (R190): every tag but PC-98 and the legacy ones. -/
def Tag.windowed : Tag → Bool
  | .unmapped | .unchained | .chainedEga | .chainedVga | .chainedVgaSlow | .chainedVgaEt4k | .chainedVgaEt4kSlow
  | .linear => true
  | _ => false

end Sys2Proof

namespace Sys2Proof.Machine

/-- A decoder access of width `n` at `x` is aligned (R210). -/
def alignedAt (n : PortWidth) (x : Nat) : Prop := n = .byte ∨ x % 2 = 0

end Sys2Proof.Machine

namespace Sys2Proof

open Machine

/-- A transaction of width `w` meets the decoder's contract when presented directly (R74): any byte or doubleword, a word
at an even address. -/
def Width.direct (w : Width) (addr : Word) : Prop := w ≠ .word ∨ addr.toNat % 2 = 0

/-- The bus width of a decoder width. -/
def PortWidth.width : PortWidth → Width
  | .byte => .byte
  | .word => .word

/-- The transaction row of a read (R101). -/
def Width.rdRow (w : Width) (addr : Word) : Instr :=
  match w with
  | .byte => .rd8 addr
  | .word => .rd16 addr
  | .dword => .rd32 addr

/-- The transaction row of a write (R101). -/
def Width.wrRow (w : Width) (addr data : Word) : Instr :=
  match w with
  | .byte => .wr8 addr (data.setWidth 8)
  | .word => .wr16 addr (data.setWidth 16)
  | .dword => .wr32 addr data

end Sys2Proof

namespace Sys2Proof.Machine

/-! ### Rows by selector value -/

/-- The region offset of a decoder address (R84, R212). -/
def regionOffset (addr : Word) : Nat :=
  if 0xE0000 ≤ addr.toNat then (addr &&& 0x7FFF#32).toNat + 0x20000 else (addr &&& 0x1FFFF#32).toNat

/-- The region row of a decoder read, by the decode of R212. -/
def regionRdRow (n : PortWidth) (addr : Word) : Instr :=
  if addr &&& ~~~0x1F#32 = 0xA3FE0#32 then .pc98MswRd n addr
  else if regionOffset addr >>> 13 = 0 then .pc98CharRd n addr
  else if regionOffset addr >>> 13 = 1 then .pc98AttrRd n addr
  else if regionOffset addr >>> 13 = 2 then .pc98UnknownRd n addr
  else if regionOffset addr >>> 13 = 3 then .pc98AbsentRd n addr
  else .pc98GraphicsRd n addr

/-- The region row of a decoder write, by the decode of R212. -/
def regionWrRow (n : PortWidth) (addr : Word) (v : Half) : Instr :=
  if addr &&& ~~~0x1F#32 = 0xA3FE0#32 then .pc98MswWr n addr v
  else if regionOffset addr >>> 13 = 0 then .pc98CharWr n addr v
  else if regionOffset addr >>> 13 = 1 then .pc98AttrWr n addr v
  else if regionOffset addr >>> 13 = 2 then .pc98UnknownWr n addr v
  else if regionOffset addr >>> 13 = 3 then .pc98AbsentWr n addr v
  else .pc98GraphicsWr n addr v

/-- The VRAM-operation row of a graphics read, by the table of R112. -/
def vopRdRow (mode : BitVec 4) (n : PortWidth) (off : BitVec 18) : Instr :=
  if mode.toNat ≤ 7 then .vopPassRd (mode.setWidth 3) n off
  else if mode = 8#4 ∨ mode = 9#4 then .vopTileCopyRd (mode.setWidth 1) n off
  else if mode = 0xC#4 ∨ mode = 0xD#4 then .vopTileMaskRd (mode.setWidth 1) n off
  else .vopEgcRd (mode.extractLsb' 2 1 ++ mode.extractLsb' 0 1) n off

/-- The VRAM-operation row of a graphics write, by the table of R112. -/
def vopWrRow (mode : BitVec 4) (n : PortWidth) (off : BitVec 18) (v : Half) : Instr :=
  if mode.toNat ≤ 7 then .vopPassWr (mode.setWidth 3) n off v
  else if mode = 8#4 ∨ mode = 9#4 then .vopTileCopyWr (mode.setWidth 1) n off v
  else if mode = 0xC#4 ∨ mode = 0xD#4 then .vopTileMaskWr (mode.setWidth 1) n off v
  else .vopEgcWr (mode.extractLsb' 2 1 ++ mode.extractLsb' 0 1) n off v

/-- The row of an entry of the Boolean-Combination Table (R114); `pat` is `EGC_ROP_PAT_CODE`. -/
def ropRow (pat : Option Byte) (code : Byte) (a : BitVec 15) : Instr :=
  if code = 0xC0#8 then .egcropC0 a
  else if code = 0xF0#8 then .egcropF0 a
  else if code = 0xFC#8 then .egcropFC a
  else if code = 0x0C#8 then .egcrop0C a
  else if pat = some code then .egcropPat code a
  else .egcropStub code a

/-- The row of a light source (R115). -/
def lightRow (k : BitVec 2) (a : BitVec 15) (n : PortWidth) (val : Half) : Instr :=
  match k with
  | 0#2 => .egcLs0 a n val
  | 1#2 => .egcLs1 a n val
  | 2#2 => .egcLs2 a n val
  | 3#2 => .egcLs3 a n val

/-- The Shifter input row of an EGC access of width `n` in byte lane `ln`, with the four planes' chunks (R283, R304). -/
def inRow (n : PortWidth) (ln : Bool) (q : Quad) : Instr :=
  match n with
  | .byte => .shIn8 (q.p0.setWidth 8) (q.p1.setWidth 8) (q.p2.setWidth 8) (q.p3.setWidth 8) ln
  | .word => .shIn16 q.p0 q.p1 q.p2 q.p3

/-- The Shifter output row of an EGC access (R283, R304). -/
def outRow (n : PortWidth) (ln : Bool) : Instr :=
  match n with
  | .byte => .shOut8 ln false
  | .word => .shOut16

/-- `t` is reached from `s` by running two instructions one after the other. -/
def runs2 (i j : Instr) (s t : State) : Prop := ∃ u, exec i s = .next u ∧ exec j u = .next t

/-- The accessed part of a 16-bit register holds the VRAM bytes at `o`, the other part what `old` held (R281). -/
def loaded (s : State) (o : Nat) (n : PortWidth) (ln : Bool) (old new : Half) : Prop :=
  match n with
  | .word => getLane new false = s.vramAt (s.wrap o) ∧ getLane new true = s.vramAt (s.wrap (o + 1))
  | .byte => getLane new ln = s.vramAt (s.wrap o) ∧ getLane new (!ln) = getLane old (!ln)

/-- The byte lane that byte `k` of an access of width `n` at in-plane offset `a` uses (R281). -/
def laneAt (n : PortWidth) (a k : Nat) : Bool :=
  match n with
  | .byte => laneOf a
  | .word => decide (k = 1)

/-- The VRAM offset of plane `p` at an in-plane offset: base of the plane's window plus the page-selected base (R85,
R223). -/
def State.pa (s : State) (p : Plane) (a : Nat) : Nat :=
  a + [0x08000, 0x10000, 0x18000, 0x20000].getD p.val 0 +
    (if s.cfg.pc98.vopAccess then s.plat.vopPageOffset.toNat else 0)

/-- The page-selected base alone (R85). -/
def State.pageBase (s : State) : Nat := if s.cfg.pc98.vopAccess then s.plat.vopPageOffset.toNat else 0

/-- A cursor of the Shifter moved by `k` bytes in the direction latched at reinit (R252). -/
def moved (dec : Bool) (k cursor : Nat) : Nat := if dec then (cursor + 512 - k) % 512 else (cursor + k) % 512

/-- The value of a configuration field as a number; a colour expansion by its four words, `display_mode` by the number
of its name (R34, R36, R38 to R41). -/
def ExtConfig.get (c : ExtConfig) : CfgField → List Nat
  | .writeMode => [c.planar.writeMode.toNat]
  | .readMode => [c.planar.readMode.toNat]
  | .rasterOp => [c.planar.rasterOp.toNat]
  | .bitMask => [c.planar.bitMask.toNat]
  | .mapMask => [c.planar.mapMask.toNat]
  | .dataRotate => [c.planar.dataRotate.toNat]
  | .setReset => [c.planar.setReset.toNat]
  | .enableSetReset => [c.planar.enableSetReset.toNat]
  | .colorCompare => [c.planar.colorCompare.toNat]
  | .colorDontCare => [c.planar.colorDontCare.toNat]
  | .readMapSelect => [c.planar.readMapSelect.toNat]
  | .oddEven => [c.planar.oddEven.toNat]
  | .chained => [c.disp.chained.toNat]
  | .compatibleChain4 => [c.disp.compatibleChain4.toNat]
  | .bankRead => [c.disp.bankRead]
  | .bankWrite => [c.disp.bankWrite]
  | .bankSize => [c.disp.bankSize]
  | .windowSelect => [c.disp.windowSelect.toNat]
  | .displayMode =>
    match c.disp.displayMode with
    | .text => [0]
    | .cga2 => [1]
    | .cga4 => [2]
    | .ega => [3]
    | .vga8 => [4]
    | .lin15 => [5]
    | .lin16 => [6]
    | .lin24 => [7]
    | .lin32 => [8]
    | .pc98 => [9]
    | .other => [15]
  | .vopMode => [c.pc98.vopMode.toNat]
  | .vopAccess => [c.pc98.vopAccess.toNat]
  | .analog16 => [c.pc98.analog16.toNat]
  | .chEn => [c.pc98.chEn.toNat]
  | .msw k => [c.pc98.msw[k].toNat]
  | .egcAccess => [c.egc.access.toNat]
  | .egcFgc => [c.egc.fgc.toNat]
  | .egcLeadPlane => [c.egc.leadPlane.toNat]
  | .egcCompareLead => [c.egc.compareLead.toNat]
  | .egcLightsource => [c.egc.lightsource.toNat]
  | .egcShiftinput => [c.egc.shiftinput.toNat]
  | .egcRegload => [c.egc.regload.toNat]
  | .egcRop => [c.egc.rop.toNat]
  | .egcMask => [c.egc.mask.toNat]
  | .egcForeground => [c.egc.fgcm.p0.toNat, c.egc.fgcm.p1.toNat, c.egc.fgcm.p2.toNat, c.egc.fgcm.p3.toNat]
  | .egcBackground => [c.egc.bgcm.p0.toNat, c.egc.bgcm.p1.toNat, c.egc.bgcm.p2.toNat, c.egc.bgcm.p3.toNat]
  | .shiftDescend => [c.egc.shiftDescend.toNat]
  | .shiftLength => [c.egc.shiftLength.toNat]
  | .shiftSrcbit => [c.egc.shiftSrcbit.toNat]
  | .shiftDstbit => [c.egc.shiftDstbit.toNat]

end Sys2Proof.Machine

namespace Sys2Proof

/-- What a configuration field holds after a `CFG` of `v`: the value truncated to the field's width (R34, R39, R40,
R103), the four words of a colour (R41). -/
def CfgField.truncated (f : CfgField) (v : Nat) : List Nat :=
  match f with
  | .writeMode | .bitMask | .egcRop => [v % 2 ^ 8]
  | .msw _ => [v % 2 ^ 8]
  | .readMode | .oddEven | .chained | .compatibleChain4 | .vopAccess | .analog16 | .egcCompareLead | .egcShiftinput
  | .shiftDescend => [v % 2]
  | .rasterOp | .readMapSelect | .windowSelect | .egcFgc | .egcLeadPlane | .egcLightsource | .egcRegload => [v % 4]
  | .dataRotate => [v % 8]
  | .mapMask | .setReset | .enableSetReset | .colorCompare | .colorDontCare | .vopMode | .chEn | .egcAccess
  | .shiftSrcbit | .shiftDstbit => [v % 16]
  | .shiftLength => [v % 2 ^ 12]
  | .egcMask => [v % 2 ^ 16]
  | .bankRead | .bankWrite | .bankSize => [v]
  | .displayMode => [if v ≤ 9 then v else 15]
  | .egcForeground | .egcBackground =>
    [if v.testBit 0 then 0xFFFF else 0, if v.testBit 1 then 0xFFFF else 0, if v.testBit 2 then 0xFFFF else 0,
     if v.testBit 3 then 0xFFFF else 0]

end Sys2Proof

namespace Sys2Proof.Machine

/-! ### Parameters -/

/-- The parameters of a machine are such as R8 asks: those it puts on the parameters alone, and at least 0x80000 bytes of
VRAM while a page is bound to the PC-98 decoder. -/
structure State.ParamsGood (s : State) : Prop where
  platform : s.plat.wf = true
  vramForPc98 : (∃ addr : Word, s.handlerAt addr = .pc98) → 0x80000 ≤ s.plat.vmemSize

/-! ### Byte-linear accesses -/

/-- The flat address a byte-linear handler gives an address under a bank offset: inside the linear framebuffer window
`LINEAR` takes the window's base and mask and no bank (R81, R176), every other access the window mask and the bank. -/
def State.linearAt (s : State) (h : Tag) (bank addr : Word) : Nat :=
  match if h = .linear then s.lfbOf addr else none with
  | some l => (addr - l.base).toNat % l.size.bytes % s.plat.vmemSize
  | none => ((addr &&& s.binding.pageMask) + bank).toNat % s.plat.vmemSize

/-- The VRAM offset a byte-linear handler gives a flat address, before the wrap: spread by four in the generic chain-4
handler (R160), the flat address itself in the others. -/
def linearPlace (h : Tag) (a : Nat) : Nat := if h = .chainedVga then 4 * (a - a % 4) + a % 4 else a

/-- `n` byte writes through a handler's row, one after the other at consecutive addresses, byte `k` carrying
`data[8k+7:8k]`, lead from `s` to `t`. -/
def byteWrites (h : Tag) : Nat → Word → Word → State → State → Prop
  | 0, _, _, s, t => t = s
  | n + 1, addr, data, s, t =>
    ∃ u, exec (Instr.busWr .byte addr data h) s = .next u ∧ byteWrites h n (addr + 1) (data >>> 8) u t

end Sys2Proof.Machine
end

