-- ==== Sys2Proof/Certificates/Slice0/Obligations.lean ====
section
/-! DEFINITION. The statements about the model, for the provers. A statement with hypotheses has its witness in
Sys2Proof/Tests/Slice0.lean. -/

open Sys2Proof Sys2Proof.Machine

/-! ### Encoding and the step -/

/-- The decoder reads back every well-formed instruction from its frame. The ten-byte frame is the model's packaging of
the selector word of R105 with its operands (log entry 2). -/
def Obligations.DecodeOfEncode : Prop :=
  ∀ (pat : Option Byte) (i : Instr), i.wf pat = true → decode pat (encode i) = .ok i

/-- The record format: each op byte of R102 and R101 is read as its operation, whatever its
unused bytes hold (log entry 12), every unassigned one is refused. -/
def Obligations.RecordFormat : Prop :=
  ∀ (x y : Word),
    let rec9 : Byte → Except DecodeError Instr := fun op => decodeRecord (op :: (bytes32 x ++ bytes32 y))
    rec9 0x00#8 = .ok (.rd8 x) ∧ rec9 0x01#8 = .ok (.rd16 x) ∧ rec9 0x02#8 = .ok (.rd32 x) ∧
    rec9 0x04#8 = .ok (.wr8 x (y.setWidth 8)) ∧ rec9 0x05#8 = .ok (.wr16 x (y.setWidth 16)) ∧
    rec9 0x06#8 = .ok (.wr32 x y) ∧
    (∀ f : CfgField, x = BitVec.ofNat 32 f.id → rec9 0x80#8 = .ok (.cfg f y)) ∧
    rec9 0x81#8 = .ok .dispatch ∧ rec9 0x82#8 = .ok .reset ∧ rec9 0x83#8 = .ok .egcReinit ∧
    (∀ p : Plane, x = BitVec.ofNat 32 p.val → rec9 0x84#8 = .ok (.tileLoad p (y.setWidth 16))) ∧
    (∀ op : Byte, op = 0x03#8 ∨ op = 0x07#8 ∨ (0x08 ≤ op.toNat ∧ op.toNat ≤ 0x7F) ∨ 0x85 ≤ op.toNat →
      ∀ (s : State) (rest : List QueueEntry), s.input = .record (op :: (bytes32 x ++ bytes32 y)) :: rest →
        step s = .refused (.badRecord (.unassignedOp op)))

/-- A few words written out from the encodings of R101 and R105 decode to the instructions they stand for. Their operands
and widths are read from the frame bits above the selector word, 0 here (log entry 2); that 0x605A is a stub holds because
the reset instance leaves `EGC_ROP_PAT_CODE` unset (log entries 4, 8). -/
def Obligations.DecodedWords : Prop :=
  decodeTableWord 16 0xB082 = some .reset ∧
  decodeTableWord 16 0x0106 = some (.unchainedWr .dword 0#32 0#32) ∧
  decodeTableWord 16 0x501E = some (.vopEgcWr 2#2 .byte 0#18 0#16) ∧
  decodeTableWord 16 0x605A = some (.egcropStub 0x5A#8 0#15) ∧
  decodeTableWord 16 0xA017 = some (.pc98MswWr .byte 0#32 0#16) ∧
  decodeRecord [0x05#8, 0x07#8, 0x00#8, 0x0A#8, 0x00#8, 0xAA#8, 0xBB#8, 0x00#8, 0x00#8] =
    .ok (.wr16 0xA0007#32 0xBBAA#16)

/-- One step takes the oldest entry off the queue and runs the instruction its bytes decode to, frame or record, and does
nothing else around it; an entry that decodes to none is refused by name; with nothing to serve the block waits (log
entry 1). -/
def Obligations.StepRunsDecoded : Prop :=
  ∀ (s : State) (rest : List QueueEntry) (bs : List Byte),
    (∀ i, s.input = .frame bs :: rest → decode s.plat.patCode bs = .ok i → step s = exec i (s.setInput rest)) ∧
    (∀ i, s.input = .record bs :: rest → decodeRecord bs = .ok i → step s = exec i (s.setInput rest)) ∧
    (∀ e, s.input = .frame bs :: rest → decode s.plat.patCode bs = .error e → step s = .refused (.badRecord e)) ∧
    (∀ e, s.input = .record bs :: rest → decodeRecord bs = .error e → step s = .refused (.badRecord e)) ∧
    (s.input = [] → step s = .next s)

/-! ### Invariants and whole-machine rules -/

/-- The invariant holds after reset. -/
def Obligations.InvAtReset : Prop := State.reset.Inv

/-- Every step keeps the invariant: canonical memories inside their bounds, the Shifter's registers inside theirs, no
diagnostic logged twice. -/
def Obligations.StepKeepsInv : Prop :=
  ∀ (s t : State), s.Inv → step s = .next t → t.Inv

/-- The frame of every instruction: nothing but the fields named for it changes. -/
def Obligations.ExecFrame : Prop :=
  ∀ (i : Instr) (s t : State), exec i s = .next t → s.keepsBut i.writes t

/-- Neither the marks of `Logged` nor the cycle budget enters any value: the same instruction run with other marks and
another budget gives the same outcome and the same state up to those two fields. -/
def Obligations.LoggedAndCyclesNeverRead : Prop :=
  ∀ (i : Instr) (s t : State) (l : List LogMark) (c : Int), exec i s = .next t →
    ∃ l' c', exec i ((s.setLogged l).setCyclesLeft c) = .next ((t.setLogged l').setCyclesLeft c')

/-- Marks are only added, each once, except by RESET, which empties them. -/
def Obligations.LoggedOnlyGrows : Prop :=
  ∀ (i : Instr) (s t : State), exec i s = .next t →
    (i = .reset → t.logged = []) ∧
    (i ≠ .reset → (∃ l, t.logged = s.logged ++ l) ∧ (s.logged.Nodup → t.logged.Nodup))

/-! ### Reset and the environment's operations -/

/-- The model's reset state is the state after one RESET on a machine that has been given parameters and configuration;
those are the model's choices (log entries 4, 5, 6). -/
def Obligations.ResetStateIsAfterReset : Prop :=
  exec .reset (State.blank Config.platform ExtConfig.reset) = .next State.reset

/-- RESET: VRAM all zero, the Shifter as `reinit` leaves it, the Binding as DISPATCH computes it, the marks emptied;
nothing else written. That the waiting queue and CyclesLeft stay and the output port is emptied is the model's choice
(log entry 7). -/
def Obligations.ResetEffect : Prop :=
  ∀ s : State, ∃ t u v, exec .reset s = .next t ∧ exec .egcReinit s = .next u ∧ exec .dispatch s = .next v ∧
    (∀ x, t.vramAt x = 0x00#8) ∧ t.sh = u.sh ∧ t.binding = v.binding ∧ t.logged = [] ∧ t.out = .none ∧
    s.keepsBut [.vram, .sh, .binding, .logged, .out] t

/-- CFG writes one field, truncated to its width, and no other; it runs neither Dispatch nor reinit, so Binding and
Shifter stay. The widths of the Bank and Window fields and the reading of a mode R103 does not list are the model's (log
entries 10, 11). -/
def Obligations.CfgWritesOneField : Prop :=
  ∀ (s : State) (f : CfgField) (v : Word), ∃ t, exec (.cfg f v) s = .next t ∧
    t.cfg.get f = f.truncated v.toNat ∧ (∀ g, g ≠ f → t.cfg.get g = s.cfg.get g) ∧ t.out = .none ∧
    s.keepsBut [.cfg, .out] t

/-- TILE_LOAD sets one tile register. -/
def Obligations.TileLoad : Prop :=
  ∀ (s : State) (p : Plane) (v : Half), ∃ t, exec (.tileLoad p v) s = .next t ∧ t.tile.get p = v ∧
    (∀ q, q ≠ p → t.tile.get q = s.tile.get q) ∧ t.out = .none ∧ s.keepsBut [.tile, .out] t

/-! ### The Raster Operation Engine -/

/-- The four raster operations, bit by bit. -/
def Obligations.RasterOps : Prop :=
  ∀ (s : State) (input mask : Word), ∃ w0 w1 w2 w3 : Word,
    exec (.ropNone input mask) s = .next (s.setOut (.word w0)) ∧
    exec (.ropAnd input mask) s = .next (s.setOut (.word w1)) ∧
    exec (.ropOr input mask) s = .next (s.setOut (.word w2)) ∧
    exec (.ropXor input mask) s = .next (s.setOut (.word w3)) ∧
    ∀ i, i < 32 →
      w0.getLsbD i = ropBit 0#2 (input.getLsbD i) (mask.getLsbD i) (s.latch.getLsbD i) ∧
      w1.getLsbD i = ropBit 1#2 (input.getLsbD i) (mask.getLsbD i) (s.latch.getLsbD i) ∧
      w2.getLsbD i = ropBit 2#2 (input.getLsbD i) (mask.getLsbD i) (s.latch.getLsbD i) ∧
      w3.getLsbD i = ropBit 3#2 (input.getLsbD i) (mask.getLsbD i) (s.latch.getLsbD i)

/-- The four write modes, pixel by pixel in each plane lane: bit `j` of the lane of plane `p`. -/
def Obligations.WriteModes : Prop :=
  ∀ (s : State) (val : Byte),
    let c := s.cfg.planar
    let rot : Nat → Bool := fun j => val.getLsbD ((j + c.dataRotate.toNat) % 8)
    ∃ w0 w1 w2 w3 : Word,
      exec (.wm0 val) s = .next (s.setOut (.word w0)) ∧
      exec (.wm1 val) s = .next (s.setOut (.word w1)) ∧
      exec (.wm2 val) s = .next (s.setOut (.word w2)) ∧
      exec (.wm3 val) s = .next (s.setOut (.word w3)) ∧
      ∀ (p : Plane) (j : Nat), j < 8 →
        (lane w0 p).getLsbD j =
          ropBit c.rasterOp (if c.enableSetReset.getLsbD p.val then c.setReset.getLsbD p.val else rot j)
            (c.bitMask.getLsbD j) ((lane s.latch p).getLsbD j) ∧
        (lane w1 p).getLsbD j = (lane s.latch p).getLsbD j ∧
        (lane w2 p).getLsbD j =
          ropBit c.rasterOp (val.getLsbD p.val) (c.bitMask.getLsbD j) ((lane s.latch p).getLsbD j) ∧
        (lane w3 p).getLsbD j =
          ropBit c.rasterOp (c.setReset.getLsbD p.val) (rot j && c.bitMask.getLsbD j) ((lane s.latch p).getLsbD j)

/-- An unsupported write mode gives the planar word 0 and leaves its mark the first time only. -/
def Obligations.UnsupportedWriteMode : Prop :=
  ∀ (s : State) (mode val : Byte), 4 ≤ mode.toNat → ∃ t, exec (.wmUnsup mode val) s = .next t ∧
    t.out = .word 0#32 ∧ (⟨.writeMode, mode⟩ : LogMark) ∈ t.logged ∧
    ((⟨.writeMode, mode⟩ : LogMark) ∈ s.logged → t.logged = s.logged) ∧
    ((⟨.writeMode, mode⟩ : LogMark) ∉ s.logged → t.logged = s.logged ++ [⟨.writeMode, mode⟩]) ∧
    s.keepsBut [.logged, .out] t

/-! ### Planar reads and writes -/

/-- A planar read in read mode 0: the Latch takes the four bytes of the planar word, one lane of it is returned; under
odd/even the index loses its low bit and the plane's low bit becomes the address's. -/
def Obligations.PlanarReadMode0 : Prop :=
  ∀ (s : State) (idx : Word) (raw : Bool) (plane : Plane), 2 ≤ s.plat.vmemBits →
    let oe := s.cfg.planar.oddEven
    let i := if oe then idx.toNat - idx.toNat % 2 else idx.toNat
    ∃ (L : Word) (q : Plane),
      exec (.rm0 idx raw plane) s = .next ((s.setLatch L).setOut (.byte (lane L q))) ∧
      (∀ p : Plane, lane L p = s.vramAt (4 * (i % (s.plat.vmemSize / 4)) + p.val)) ∧
      q.val = (if oe then plane.val - plane.val % 2 + raw.toNat else plane.val)

/-- A planar read in read mode 1: a result bit is 1 exactly where every plane that takes part has its bit equal to its
compare bit. -/
def Obligations.PlanarReadMode1 : Prop :=
  ∀ (s : State) (idx : Word) (raw : Bool) (plane : Plane), 2 ≤ s.plat.vmemBits →
    let i := if s.cfg.planar.oddEven then idx.toNat - idx.toNat % 2 else idx.toNat
    ∃ (L : Word) (v : Byte),
      exec (.rm1 idx raw plane) s = .next ((s.setLatch L).setOut (.byte v)) ∧
      (∀ p : Plane, lane L p = s.vramAt (4 * (i % (s.plat.vmemSize / 4)) + p.val)) ∧
      ∀ j, j < 8 → (v.getLsbD j = true ↔ ∀ p : Plane, s.cfg.planar.colorDontCare.getLsbD p.val = true →
        (lane L p).getLsbD j = s.cfg.planar.colorCompare.getLsbD p.val)

/-- A byte read through a latched handler: one debit, then the planar read at the index, address bit and nominal plane
that the handler's translation gives. -/
def Obligations.LatchedByteReads : Prop :=
  ∀ (s : State) (addr : Word),
    let m := s.cfg.planar.readMode
    let t := (addr &&& s.binding.pageMask) + s.binding.bankReadFull
    let i := t.toNat % (s.plat.vmemSize / 4)
    let a := t.toNat % s.plat.vmemSize
    (∃ u, exec (rmRow m (BitVec.ofNat 32 i) (decide (i % 2 = 1)) s.cfg.planar.readMapSelect.toFin) s.debitRead = .next u ∧
      exec (.unchainedRd .byte addr) s = .next u) ∧
    (∃ u, exec (rmRow m (BitVec.ofNat 32 (a - a % 4)) (decide (a % 2 = 1)) (chainPlane a)) s.debitRead = .next u ∧
      exec (.chainedVgaSlowRd .byte addr) s = .next u) ∧
    (∃ u, exec (rmRow m (BitVec.ofNat 32 (a / 4)) (decide (a % 2 = 1)) (chainPlane a)) s.debitRead = .next u ∧
      exec (.chainedVgaEt4kSlowRd .byte addr) s = .next u)

/-- A byte write through a latched handler: the planar word of the write mode's row, stored to the enabled planes of the
addressed planar word (for the chained handlers to the addressed plane only); every other byte of VRAM, and the Latch,
as before. -/
def Obligations.LatchedByteWrites : Prop :=
  ∀ (s : State) (h : Tag) (addr data : Word), s.Inv → 2 ≤ s.plat.vmemBits → h.latched = true →
    let t := ((addr &&& s.binding.pageMask) + s.binding.bankWriteFull).toNat
    let a := t % s.plat.vmemSize
    let i :=
      if h = .unchained then t % (s.plat.vmemSize / 4)
      else (if h = .chainedVgaSlow then a - a % 4 else a / 4) % (s.plat.vmemSize / 4)
    let hit : Plane → Bool := fun p => s.planeOn p && (h == .unchained || p == chainPlane a)
    ∃ u v w, exec (wmRow s.cfg.planar.writeMode (data.setWidth 8)) s = .next u ∧ u.out = .word w ∧
      exec (Instr.busWr .byte addr data h) s = .next v ∧
      (∀ p : Plane, v.vramAt (4 * i + p.val) = if hit p then lane w p else s.vramAt (4 * i + p.val)) ∧
      (∀ x, (∀ p : Plane, x ≠ 4 * i + p.val) → v.vramAt x = s.vramAt x) ∧
      v.logged = u.logged ∧ v.cyclesLeft = s.cyclesLeft - s.plat.writeDelay ∧ v.out = .none ∧
      s.keepsBut [.vram, .logged, .cyclesLeft, .out] v

/-- A wide access through a latched handler is its byte accesses at consecutive addresses, low address first: each read
with its own translation and Latch load, the results put together little-endian; each write carrying bits `8k+7..8k`.
One debit for the access. -/
def Obligations.LatchedWideAccesses : Prop :=
  ∀ (s : State) (h : Tag) (addr data : Word), h.latched = true →
    (∃ t0 t1 t2 t3 b0 b1 b2 b3,
      exec (Instr.busRd .byte addr h) s = .next t0 ∧ t0.out = .byte b0 ∧
      exec (Instr.busRd .byte (addr + 1) h) t0 = .next t1 ∧ t1.out = .byte b1 ∧
      exec (Instr.busRd .byte (addr + 2) h) t1 = .next t2 ∧ t2.out = .byte b2 ∧
      exec (Instr.busRd .byte (addr + 3) h) t2 = .next t3 ∧ t3.out = .byte b3 ∧
      exec (Instr.busRd .word addr h) s =
        .next ((t1.setCyclesLeft t0.cyclesLeft).setOut (.half (b1 ++ b0))) ∧
      exec (Instr.busRd .dword addr h) s =
        .next ((t3.setCyclesLeft t0.cyclesLeft).setOut (.word ((b3 ++ b2) ++ (b1 ++ b0))))) ∧
    ∃ t0 t1 t2 t3,
      exec (Instr.busWr .byte addr data h) s = .next t0 ∧
      exec (Instr.busWr .byte (addr + 1) (data >>> 8) h) t0 = .next t1 ∧
      exec (Instr.busWr .byte (addr + 2) (data >>> 16) h) t1 = .next t2 ∧
      exec (Instr.busWr .byte (addr + 3) (data >>> 24) h) t2 = .next t3 ∧
      exec (Instr.busWr .word addr data h) s = .next (t1.setCyclesLeft t0.cyclesLeft) ∧
      exec (Instr.busWr .dword addr data h) s = .next (t3.setCyclesLeft t0.cyclesLeft)

/-! ### The byte-linear handlers -/

/-- A byte access through a byte-linear handler: one VRAM byte at the offset its chain-4 arithmetic gives, nothing else;
the Latch, the write mode and the map mask take no part. `LINEAR` is taken outside the linear framebuffer window. -/
def Obligations.ByteLinearBytes : Prop :=
  ∀ (s : State) (h : Tag) (addr data : Word), s.Inv → h.byteLinear = true → (h = .linear → s.lfbOf addr = none) →
    let place : Nat → Nat := fun a => if h = .chainedVga then (4 * (a - a % 4) + a % 4) % s.plat.vmemSize else a
    let r := place (((addr &&& s.binding.pageMask) + s.binding.bankReadFull).toNat % s.plat.vmemSize)
    let w := place (((addr &&& s.binding.pageMask) + s.binding.bankWriteFull).toNat % s.plat.vmemSize)
    exec (Instr.busRd .byte addr h) s =
      .next ((s.setCyclesLeft (s.cyclesLeft - s.plat.readDelay)).setOut (.byte (s.vramAt r))) ∧
    ∃ t, exec (Instr.busWr .byte addr data h) s = .next t ∧ t.vramAt w = data.setWidth 8 ∧
      (∀ x, x ≠ w → t.vramAt x = s.vramAt x) ∧ t.cyclesLeft = s.cyclesLeft - s.plat.writeDelay ∧ t.out = .none ∧
      s.keepsBut [.vram, .cyclesLeft, .out] t

/-- Inside the linear framebuffer window `LINEAR` uses the window's base and mask and no bank; that an address is inside is
decided by its page (log entry 19), a window past 2^32 not being wrapped (log entry 39). -/
def Obligations.LfbBytes : Prop :=
  ∀ (s : State) (addr data : Word) (l : Lfb), s.Inv → s.lfbOf addr = some l →
    let o := ((addr - l.base).toNat % l.size.bytes) % s.plat.vmemSize
    exec (.linearRd .byte addr) s =
      .next ((s.setCyclesLeft (s.cyclesLeft - s.plat.readDelay)).setOut (.byte (s.vramAt o))) ∧
    ∃ t, exec (.linearWr .byte addr data) s = .next t ∧ t.vramAt o = data.setWidth 8 ∧
      (∀ x, x ≠ o → t.vramAt x = s.vramAt x) ∧ t.cyclesLeft = s.cyclesLeft - s.plat.writeDelay ∧ t.out = .none ∧
      s.keepsBut [.vram, .cyclesLeft, .out] t

/-- Accesses of every width through a byte-linear handler. Where the flat address of the first byte is a multiple of the
width it is one piece: consecutive VRAM bytes from the place of that flat address (log entries 19, 33, 39). Elsewhere each byte has
the place of its own flat address. A read gives those bytes, a write stores to them in address order. So it equals its
byte accesses, but for one debit: wherever it is split, and in one piece where all its bytes lie inside the linear
framebuffer window, or (for `LINEAR`, outside it) window mask and bank leave the two low address bits alone. -/
def Obligations.WideByteLinearIsBytes : Prop :=
  ∀ (s : State) (h : Tag) (w : Width) (addr data : Word), s.Inv → h.byteLinear = true →
    let n := widthBytes w
    let nth : Nat → Word := fun k => addr + BitVec.ofNat 32 k
    let offset : Word → Nat → Nat := fun bank k =>
      s.wrap (if s.linearAt h bank addr % n = 0 then linearPlace h (s.linearAt h bank addr) + k
        else linearPlace h (s.linearAt h bank (nth k)))
    let likeBytes : Word → Prop := fun bank =>
      s.linearAt h bank addr % n ≠ 0 ∨
      2 ≤ s.plat.vmemBits ∧
        ((∃ l, h = .linear ∧ ∀ k, k < n → s.lfbOf (nth k) = some l) ∨
         ((h = .linear → ∀ k, k < n → s.lfbOf (nth k) = none) ∧
           s.binding.pageMask &&& 3#32 = 3#32 ∧ bank &&& 3#32 = 0#32))
    ∃ v t, exec (Instr.busRd w addr h) s = .next (s.debitRead.setOut (Out.ofWidth w v)) ∧
      exec (Instr.busWr w addr data h) s = .next t ∧
      (∀ k, k < n → byteOf v k = s.vramAt (offset s.binding.bankReadFull k)) ∧
      (∀ x, t.vramAt x = (List.range n).foldl
        (fun b k => if offset s.binding.bankWriteFull k = x then byteOf data k else b) (s.vramAt x)) ∧
      t.cyclesLeft = s.cyclesLeft - s.plat.writeDelay ∧ t.out = .none ∧ s.keepsBut [.vram, .cyclesLeft, .out] t ∧
      (likeBytes s.binding.bankReadFull →
        ∀ k, k < n → exec (Instr.busRd .byte (nth k) h) s = .next (s.debitRead.setOut (.byte (byteOf v k)))) ∧
      (likeBytes s.binding.bankWriteFull →
        ∃ u, byteWrites h n addr data s u ∧ t = u.setCyclesLeft (s.cyclesLeft - s.plat.writeDelay))

/-- The slow chained handlers under an identity datapath are the fast ones: the same value read, the same state left but
for the Latch. -/
def Obligations.SlowIsFastUnderIdentity : Prop :=
  ∀ (s : State) (addr data : Word), s.Inv → 2 ≤ s.plat.vmemBits →
    s.cfg.planar.bitMask = 0xFF#8 → s.cfg.planar.writeMode = 0#8 → s.cfg.planar.dataRotate = 0#3 →
    s.cfg.planar.enableSetReset = 0#4 → s.cfg.planar.rasterOp = 0#2 → s.cfg.planar.readMode = false →
    s.cfg.planar.oddEven = false →
    s.planeOn (chainPlane (((addr &&& s.binding.pageMask) + s.binding.bankWriteFull).toNat % s.plat.vmemSize)) = true →
    (∃ t L, exec (.chainedVgaRd .byte addr) s = .next t ∧ exec (.chainedVgaSlowRd .byte addr) s = .next (t.setLatch L)) ∧
    (∃ t L, exec (.chainedVgaEt4kRd .byte addr) s = .next t ∧
      exec (.chainedVgaEt4kSlowRd .byte addr) s = .next (t.setLatch L)) ∧
    (∃ t, exec (.chainedVgaWr .byte addr data) s = .next t ∧ exec (.chainedVgaSlowWr .byte addr data) s = .next t) ∧
    (∃ t, exec (.chainedVgaEt4kWr .byte addr data) s = .next t ∧
      exec (.chainedVgaEt4kSlowWr .byte addr data) s = .next t)

/-! ### Transactions, debits, refusals -/

/-- Every access through a tag that has a meaning completes, with one debit before it (log entry 13); a word presented
directly to the PC-98 decoder must be aligned (log entry 20). -/
def Obligations.AccessDebitsOnce : Prop :=
  ∀ (s : State) (h : Tag) (w : Width) (addr data : Word), h.served = true → (h = .pc98 → w.direct addr) →
    (∃ t, exec (Instr.busRd w addr h) s = .next t ∧ t.cyclesLeft = s.cyclesLeft - s.plat.readDelay ∧ t.vram = s.vram) ∧
    (∃ t, exec (Instr.busWr w addr data h) s = .next t ∧ t.cyclesLeft = s.cyclesLeft - s.plat.writeDelay ∧
      t.latch = s.latch)

/-- Unmapped and legacy accesses are refused in every width and direction, whatever the state. -/
def Obligations.UnmappedAndLegacyRefused : Prop :=
  ∀ (s : State) (w : Width) (addr data : Word),
    exec (.unmappedRd w addr) s = .refused .unmapped ∧ exec (.unmappedWr w addr data) s = .refused .unmapped ∧
    ∀ h : Tag, h ∈ [Tag.text, .cgaSnowText, .hercules, .tandy, .pcjr, .amstrad] →
      exec (Instr.busRd w addr h) s = .refused .legacyHandler ∧
      exec (Instr.busWr w addr data h) s = .refused .legacyHandler

/-- A transaction whose bytes lie under one binding is served by that handler's row: in full for every handler but the
PC-98 decoder, and for the decoder where its wrapper makes one access of it or splits an even doubleword (log
entries 14, 20). -/
def Obligations.TransactionsServed : Prop :=
  ∀ (s : State) (w : Width) (addr data : Word),
    let h := s.handlerAt addr
    s.sameBinding addr (addr + BitVec.ofNat 32 (widthBytes w - 1)) = true → (h = .pc98 → w.direct addr) →
    exec (w.rdRow addr) s = exec (Instr.busRd w addr h) s ∧
    exec (w.wrRow addr data) s = exec (Instr.busWr w addr data h) s

/-- Every transaction whose bytes all lie in pages bound to a tag that has a meaning completes: aligned or not, in one
page or over two. Over two bindings it is its parts run one after the other, low address first, each through the row bound
at its own address and each with its own debit, read results put together little-endian. The parts, a word's two bytes, a
doubleword's two words at an even address and four bytes at an odd one, are the model's choice (log entry 14). -/
def Obligations.TransactionsComplete : Prop :=
  ∀ (s : State) (w : Width) (addr data : Word),
    (∀ k, k < widthBytes w → (s.handlerAt (addr + BitVec.ofNat 32 k)).served = true) →
    let rd : Width → Word → Instr := fun part x => Instr.busRd part x (s.handlerAt x)
    let wr : Width → Word → Word → Instr := fun part x d => Instr.busWr part x d (s.handlerAt x)
    (∃ t, exec (w.rdRow addr) s = .next t ∧ t.vram = s.vram) ∧
    (∃ t, exec (w.wrRow addr data) s = .next t ∧ t.latch = s.latch) ∧
    (w = .word → s.sameBinding addr (addr + 1) = false →
      (∃ t0 t1 b0 b1, exec (rd .byte addr) s = .next t0 ∧ t0.out = .byte b0 ∧
        exec (rd .byte (addr + 1)) t0 = .next t1 ∧ t1.out = .byte b1 ∧
        exec (.rd16 addr) s = .next (t1.setOut (.half (b1 ++ b0)))) ∧
      ∃ t0 t1, exec (wr .byte addr data) s = .next t0 ∧ exec (wr .byte (addr + 1) (data >>> 8)) t0 = .next t1 ∧
        exec (.wr16 addr (data.setWidth 16)) s = .next t1) ∧
    (w = .dword → s.sameBinding addr (addr + 3) = false → addr.toNat % 2 = 0 →
      (∃ t0 t1 h0 h1, exec (rd .word addr) s = .next t0 ∧ t0.out = .half h0 ∧
        exec (rd .word (addr + 2)) t0 = .next t1 ∧ t1.out = .half h1 ∧
        exec (.rd32 addr) s = .next (t1.setOut (.word (h1 ++ h0)))) ∧
      ∃ t0 t1, exec (wr .word addr data) s = .next t0 ∧ exec (wr .word (addr + 2) (data >>> 16)) t0 = .next t1 ∧
        exec (.wr32 addr data) s = .next t1) ∧
    (w = .dword → s.sameBinding addr (addr + 3) = false → addr.toNat % 2 = 1 →
      (∃ t0 t1 t2 t3 b0 b1 b2 b3, exec (rd .byte addr) s = .next t0 ∧ t0.out = .byte b0 ∧
        exec (rd .byte (addr + 1)) t0 = .next t1 ∧ t1.out = .byte b1 ∧
        exec (rd .byte (addr + 2)) t1 = .next t2 ∧ t2.out = .byte b2 ∧
        exec (rd .byte (addr + 3)) t2 = .next t3 ∧ t3.out = .byte b3 ∧
        exec (.rd32 addr) s = .next (t3.setOut (.word ((b3 ++ b2) ++ (b1 ++ b0))))) ∧
      ∃ t0 t1 t2 t3, exec (wr .byte addr data) s = .next t0 ∧
        exec (wr .byte (addr + 1) (data >>> 8)) t0 = .next t1 ∧
        exec (wr .byte (addr + 2) (data >>> 16)) t1 = .next t2 ∧
        exec (wr .byte (addr + 3) (data >>> 24)) t2 = .next t3 ∧ exec (.wr32 addr data) s = .next t3)

/-- The wrapper of the PC-98 decoder: a byte or an even word is one decoder access; an odd word is two byte accesses, an
even doubleword two word accesses, an odd doubleword four byte accesses, low address first, read results put together
little-endian; one debit for the transaction (log entry 13). -/
def Obligations.Pc98Wrapper : Prop :=
  ∀ (s : State) (addr d : Word), s.handlerAt addr = .pc98 →
    exec (.rd8 addr) s = exec (.pc98Rd .byte addr) s ∧
    exec (.wr8 addr (d.setWidth 8)) s = exec (.pc98Wr .byte addr d) s ∧
    (s.sameBinding addr (addr + 1) = true → addr.toNat % 2 = 0 →
      exec (.rd16 addr) s = exec (.pc98Rd .word addr) s ∧
      exec (.wr16 addr (d.setWidth 16)) s = exec (.pc98Wr .word addr d) s) ∧
    (s.sameBinding addr (addr + 1) = true → addr.toNat % 2 = 1 →
      (∃ t0 t1 b0 b1, exec (.pc98Rd .byte addr) s = .next t0 ∧ t0.out = .byte b0 ∧
        exec (.pc98Rd .byte (addr + 1)) t0 = .next t1 ∧ t1.out = .byte b1 ∧
        exec (.rd16 addr) s = .next ((t1.setCyclesLeft t0.cyclesLeft).setOut (.half (b1 ++ b0)))) ∧
      ∃ t0 t1, exec (.pc98Wr .byte addr d) s = .next t0 ∧ exec (.pc98Wr .byte (addr + 1) (d >>> 8)) t0 = .next t1 ∧
        exec (.wr16 addr (d.setWidth 16)) s = .next (t1.setCyclesLeft t0.cyclesLeft)) ∧
    (s.sameBinding addr (addr + 3) = true → addr.toNat % 2 = 0 →
      (∃ t0 t1 h0 h1, exec (.pc98Rd .word addr) s = .next t0 ∧ t0.out = .half h0 ∧
        exec (.pc98Rd .word (addr + 2)) t0 = .next t1 ∧ t1.out = .half h1 ∧
        exec (.rd32 addr) s = .next ((t1.setCyclesLeft t0.cyclesLeft).setOut (.word (h1 ++ h0)))) ∧
      ∃ t0 t1, exec (.pc98Wr .word addr d) s = .next t0 ∧ exec (.pc98Wr .word (addr + 2) (d >>> 16)) t0 = .next t1 ∧
        exec (.wr32 addr d) s = .next (t1.setCyclesLeft t0.cyclesLeft)) ∧
    (s.sameBinding addr (addr + 3) = true → addr.toNat % 2 = 1 →
      (∃ t0 t1 t2 t3 b0 b1 b2 b3, exec (.pc98Rd .byte addr) s = .next t0 ∧ t0.out = .byte b0 ∧
        exec (.pc98Rd .byte (addr + 1)) t0 = .next t1 ∧ t1.out = .byte b1 ∧
        exec (.pc98Rd .byte (addr + 2)) t1 = .next t2 ∧ t2.out = .byte b2 ∧
        exec (.pc98Rd .byte (addr + 3)) t2 = .next t3 ∧ t3.out = .byte b3 ∧
        exec (.rd32 addr) s =
          .next ((t3.setCyclesLeft t0.cyclesLeft).setOut (.word ((b3 ++ b2) ++ (b1 ++ b0))))) ∧
      ∃ t0 t1 t2 t3, exec (.pc98Wr .byte addr d) s = .next t0 ∧
        exec (.pc98Wr .byte (addr + 1) (d >>> 8)) t0 = .next t1 ∧
        exec (.pc98Wr .byte (addr + 2) (d >>> 16)) t1 = .next t2 ∧
        exec (.pc98Wr .byte (addr + 3) (d >>> 24)) t2 = .next t3 ∧
        exec (.wr32 addr d) s = .next (t3.setCyclesLeft t0.cyclesLeft))

/-! ### The PC-98 decoder -/

/-- An aligned decoder access is one debit and then the row of the region its address decodes to: the MSW test first,
then the folded offset. -/
def Obligations.Pc98Decode : Prop :=
  ∀ (s : State) (n : PortWidth) (addr d : Word), alignedAt n addr.toNat →
    (∃ t, exec (regionRdRow n addr) s.debitRead = .next t ∧ exec (.pc98Rd n.width addr) s = .next t) ∧
    (∃ t, exec (regionWrRow n addr (cutTo n (d.setWidth 16))) s.debitWrite = .next t ∧
      exec (.pc98Wr n.width addr d) s = .next t)

/-- A width-2 decoder access at an odd address or offset is the caller's contract violation, in every row that takes a
width: where such a row is entered directly the check and the fault are the model's (log entries 20, 21, 31). -/
def Obligations.MisalignedDecoderAccess : Prop :=
  ∀ (s : State) (addr d : Word) (off : BitVec 18) (a : BitVec 15) (v : Half) (m1 : BitVec 1) (m2 : BitVec 2)
    (m3 : BitVec 3) (both : Bool), addr.toNat % 2 = 1 → off.toNat % 2 = 1 → a.toNat % 2 = 1 →
    ∀ i ∈ [Instr.pc98Rd .word addr, .pc98Wr .word addr d, .pc98MswRd .word addr, .pc98MswWr .word addr v,
        .pc98CharRd .word addr, .pc98CharWr .word addr v, .pc98AttrRd .word addr, .pc98AttrWr .word addr v,
        .pc98UnknownRd .word addr, .pc98UnknownWr .word addr v, .pc98AbsentRd .word addr, .pc98AbsentWr .word addr v,
        .pc98GraphicsRd .word addr, .pc98GraphicsWr .word addr v, .vopPassRd m3 .word off, .vopPassWr m3 .word off v,
        .vopTileCopyRd m1 .word off, .vopTileCopyWr m1 .word off v, .vopTileMaskRd m1 .word off,
        .vopTileMaskWr m1 .word off v, .vopEgcRd m2 .word off, .vopEgcWr m2 .word off v, .egcLs0 a .word v,
        .egcLs1 a .word v, .egcLs2 a .word v, .egcLs3 a .word v, .egcRlRead both a .word, .egcRlWrite a .word],
      exec i s = .fault .contractViolationPc98Align

/-- The MSW window: a read returns the register of the slot, zero-extended, a write changes nothing. At an address outside
the window that is the model's choice (log entry 40). -/
def Obligations.MswWindow : Prop :=
  ∀ (s : State) (n : PortWidth) (addr : Word) (v : Half), alignedAt n addr.toNat →
    exec (.pc98MswRd n addr) s = .next (s.setOut (Out.ofPort n
      ((s.cfg.pc98.msw[((addr >>> 2) &&& 7#32).toNat % 8]'(Nat.mod_lt _ (by decide))).setWidth 16))) ∧
    exec (.pc98MswWr n addr v) s = .next (s.setOut .none)

/-- Character RAM and the first reserved window are pass-throughs at the region offset, without the secondary offset; the
second reserved window reads all ones and ignores writes. At an address outside the row's region that is the model's
choice (log entry 40). -/
def Obligations.TextWindows : Prop :=
  ∀ (s : State) (n : PortWidth) (addr : Word) (v : Half), s.Inv → 2 ≤ s.plat.vmemBits → alignedAt n addr.toNat →
    let o := regionOffset addr
    let r : Out := match n with
      | .byte => .byte (s.vramAt (s.wrap o))
      | .word => .half (s.vramAt (s.wrap (o + 1)) ++ s.vramAt (s.wrap o))
    exec (.pc98CharRd n addr) s = .next (s.setOut r) ∧ exec (.pc98UnknownRd n addr) s = .next (s.setOut r) ∧
    (∃ t, exec (.pc98CharWr n addr v) s = .next t ∧ exec (.pc98UnknownWr n addr v) s = .next t ∧
      t.vramAt (s.wrap o) = getLane v false ∧ (n = .word → t.vramAt (s.wrap (o + 1)) = getLane v true) ∧
      (∀ x, s.outside o (portBytes n) x → t.vramAt x = s.vramAt x) ∧ t.out = .none ∧ s.keepsBut [.vram, .out] t) ∧
    exec (.pc98AbsentRd n addr) s = .next (s.setOut (match n with
      | .byte => .byte 0xFF#8
      | .word => .half 0xFFFF#16)) ∧
    exec (.pc98AbsentWr n addr v) s = .next (s.setOut .none)

/-- Attribute RAM: an odd byte reads as 0xFF and ignores writes, an even byte is a plain byte, a word's high byte is 0xFF
on read and is stored as 0xFF on write. At an address outside attribute RAM, the MSW window among them, that is the
model's choice (log entry 40). -/
def Obligations.AttributeRam : Prop :=
  ∀ (s : State) (n : PortWidth) (addr : Word) (v : Half), s.Inv → 2 ≤ s.plat.vmemBits → alignedAt n addr.toNat →
    let o := regionOffset addr
    exec (.pc98AttrRd n addr) s = .next (s.setOut (match n with
      | .byte => .byte (if addr.toNat % 2 = 1 then 0xFF#8 else s.vramAt (s.wrap o))
      | .word => .half (0xFF#8 ++ s.vramAt (s.wrap o)))) ∧
    ∃ t, exec (.pc98AttrWr n addr v) s = .next t ∧ t.out = .none ∧ s.keepsBut [.vram, .out] t ∧
      (n = .byte → addr.toNat % 2 = 1 → t.vram = s.vram) ∧
      (addr.toNat % 2 = 0 → t.vramAt (s.wrap o) = getLane v false ∧
        (n = .word → t.vramAt (s.wrap (o + 1)) = 0xFF#8) ∧
        ∀ x, s.outside o (portBytes n) x → t.vramAt x = s.vramAt x)

/-- The graphics region runs the VRAM operation of its `vop_mode` at the region offset; all sixteen modes do. At an address
outside the graphics region that is the model's choice (log entries 40, 41). -/
def Obligations.GraphicsDispatch : Prop :=
  ∀ (s : State) (n : PortWidth) (addr : Word) (v : Half), alignedAt n addr.toNat →
    let off := BitVec.ofNat 18 (regionOffset addr)
    (∃ t, exec (vopRdRow s.cfg.pc98.vopMode n off) s = .next t ∧ exec (.pc98GraphicsRd n addr) s = .next t) ∧
    (∃ t, exec (vopWrRow s.cfg.pc98.vopMode n off v) s = .next t ∧ exec (.pc98GraphicsWr n addr v) s = .next t)

/-- Pass-through reads and writes, and the read of the masked tile modes: the VRAM bytes at the region offset plus the
page-selected base. At an offset below 0x8000, outside the graphics region, and whatever `vop_mode` holds, that is the
model's choice (log entry 41). -/
def Obligations.GraphicsPassThrough : Prop :=
  ∀ (s : State) (m3 : BitVec 3) (m1 : BitVec 1) (n : PortWidth) (off : BitVec 18) (v : Half), s.Inv →
    2 ≤ s.plat.vmemBits → alignedAt n off.toNat →
    let o := off.toNat + s.pageBase
    let r : Out := match n with
      | .byte => .byte (s.vramAt (s.wrap o))
      | .word => .half (s.vramAt (s.wrap (o + 1)) ++ s.vramAt (s.wrap o))
    exec (.vopPassRd m3 n off) s = .next (s.setOut r) ∧ exec (.vopTileMaskRd m1 n off) s = .next (s.setOut r) ∧
    ∃ t, exec (.vopPassWr m3 n off v) s = .next t ∧ t.vramAt (s.wrap o) = getLane v false ∧
      (n = .word → t.vramAt (s.wrap (o + 1)) = getLane v true) ∧
      (∀ x, s.outside o (portBytes n) x → t.vramAt x = s.vramAt x) ∧ t.out = .none ∧ s.keepsBut [.vram, .out] t

/-- A tile-copy read: a result bit is 1 exactly where every participating plane's stored bit equals its tile bit; a byte
read uses the low tile byte at both parities. -/
def Obligations.TileCopyRead : Prop :=
  ∀ (s : State) (m : BitVec 1) (n : PortWidth) (off : BitVec 18), alignedAt n off.toNat →
    ∃ r : Half, exec (.vopTileCopyRd m n off) s = .next (s.setOut (Out.ofPort n r)) ∧
      ∀ j, j < 8 * portBytes n →
        (r.getLsbD j = true ↔ ∀ p : Plane, s.cfg.pc98.chEn.getLsbD p.val = true →
          (s.vramAt (s.wrap (s.pa p (off.toNat % 0x8000) + j / 8))).getLsbD (j % 8) = (s.tile.get p).getLsbD j)

/-- The tile-mode writes: each participating plane takes its low tile byte, verbatim or where the host value has a 1; a
word write copies the low tile byte into the high one; the other planes, tile registers and bytes stay. -/
def Obligations.TileWrites : Prop :=
  ∀ (s : State) (m : BitVec 1) (n : PortWidth) (off : BitVec 18) (v : Half), s.Inv → 19 ≤ s.plat.vmemBits →
    alignedAt n off.toNat →
    let on : Plane → Bool := fun p => s.cfg.pc98.chEn.getLsbD p.val
    let o : Plane → Nat := fun p => s.pa p (off.toNat % 0x8000)
    let low : Plane → Byte := fun p => getLane (s.tile.get p) false
    ∃ t u, exec (.vopTileCopyWr m n off v) s = .next t ∧ exec (.vopTileMaskWr m n off v) s = .next u ∧
      (∀ p k, on p = true → k < portBytes n →
        t.vramAt (s.wrap (o p + k)) = low p ∧
        u.vramAt (s.wrap (o p + k)) =
          (s.vramAt (s.wrap (o p + k)) &&& ~~~getLane v (decide (k = 1))) ||| (getLane v (decide (k = 1)) &&& low p)) ∧
      (∀ x, (∀ p, on p = true → s.outside (o p) (portBytes n) x) → t.vramAt x = s.vramAt x ∧ u.vramAt x = s.vramAt x) ∧
      (∀ p, t.tile.get p = if on p && n == .word then low p ++ low p else s.tile.get p) ∧ u.tile = t.tile ∧
      t.out = .none ∧ u.out = .none ∧ s.keepsBut [.vram, .tile, .out] t ∧ s.keepsBut [.vram, .tile, .out] u

/-! ### The EGC -/

/-- The four named entries of the Boolean-Combination Table, on the source quad and the destination words that contain
the accessed byte. -/
def Obligations.RopEntries : Prop :=
  ∀ (s : State) (a : BitVec 15),
    let D : Plane → Half := fun p =>
      s.vramAt (s.wrap (s.pa p (a.toNat - a.toNat % 2) + 1)) ++ s.vramAt (s.wrap (s.pa p (a.toNat - a.toNat % 2)))
    let S : Plane → Half := s.egcSrc.get
    ∃ q0 q1 q2 q3 : Quad,
      exec (.egcropC0 a) s = .next (s.setOut (.quad q0)) ∧ exec (.egcropF0 a) s = .next (s.setOut (.quad q1)) ∧
      exec (.egcropFC a) s = .next (s.setOut (.quad q2)) ∧ exec (.egcrop0C a) s = .next (s.setOut (.quad q3)) ∧
      ∀ p, q0.get p = (S p &&& D p) ∧ q1.get p = S p ∧ q2.get p = (S p ||| D p) ∧ q3.get p = (~~~S p &&& D p)

/-- The pattern-gated entry, for the code that the parameter names: bit `4S + 2D + P` of the code at every position; the
pattern is the background, the foreground, the source quad or the tile registers. -/
def Obligations.RopPattern : Prop :=
  ∀ (s : State) (code : Byte) (a : BitVec 15), s.plat.patCode = some code →
    let c := s.cfg.egc
    let D : Plane → Half := fun p =>
      s.vramAt (s.wrap (s.pa p (a.toNat - a.toNat % 2) + 1)) ++ s.vramAt (s.wrap (s.pa p (a.toNat - a.toNat % 2)))
    let P : Plane → Half := fun p =>
      if c.fgc = 1#2 then c.bgcm.get p else if c.fgc = 2#2 then c.fgcm.get p
      else if c.regload.getLsbD 0 then s.egcSrc.get p else s.tile.get p
    ∃ q : Quad, exec (.egcropPat code a) s = .next (s.setOut (.quad q)) ∧
      ∀ p j, j < 16 → (q.get p).getLsbD j =
        code.getLsbD (4 * ((s.egcSrc.get p).getLsbD j).toNat + 2 * ((D p).getLsbD j).toNat + ((P p).getLsbD j).toNat)

/-- A stub entry returns the snapshot whatever source, destination, pattern and address are, and leaves its mark the
first time only. -/
def Obligations.RopStub : Prop :=
  ∀ (s : State) (code : Byte) (a b : BitVec 15), ∃ t,
    exec (.egcropStub code a) s = .next t ∧ exec (.egcropStub code b) s = .next t ∧ t.out = .quad s.egcLast ∧
    (⟨.egcRop, code⟩ : LogMark) ∈ t.logged ∧ ((⟨.egcRop, code⟩ : LogMark) ∈ s.logged → t.logged = s.logged) ∧
    ((⟨.egcRop, code⟩ : LogMark) ∉ s.logged → t.logged = s.logged ++ [⟨.egcRop, code⟩]) ∧
    s.keepsBut [.logged, .out] t

/-- The pattern term by `egc_fgc`: 1 the background, 2 the foreground, 0 and 3 the source quad or the tile registers. -/
def Obligations.PatternTerms : Prop :=
  ∀ s : State,
    let plain := if s.cfg.egc.regload.getLsbD 0 then s.egcSrc else s.tile
    exec .egcFgc0 s = .next (s.setOut (.quad plain)) ∧ exec .egcFgc1 s = .next (s.setOut (.quad s.cfg.egc.bgcm)) ∧
    exec .egcFgc2 s = .next (s.setOut (.quad s.cfg.egc.fgcm)) ∧ exec .egcFgc3 s = .next (s.setOut (.quad plain))

/-- The light sources that do not consult the Shifter: CPU data (0, and 3 as 0) and a colour pattern, under the mask
register alone; nothing but the result changes. -/
def Obligations.LightsDirect : Prop :=
  ∀ (s : State) (a : BitVec 15) (n : PortWidth) (val : Half), alignedAt n a.toNat →
    let cpu : Half := match n with
      | .word => val
      | .byte => getLane val false ++ getLane val false
    let r := s.setOut (.egc ⟨cpu, cpu, cpu, cpu⟩ s.cfg.egc.mask)
    exec (.egcLs0 a n val) s = .next r ∧ exec (.egcLs3 a n val) s = .next r ∧
    (s.cfg.egc.fgc = 1#2 → exec (.egcLs2 a n val) s = .next (s.setOut (.egc s.cfg.egc.bgcm s.cfg.egc.mask))) ∧
    (s.cfg.egc.fgc = 2#2 → exec (.egcLs2 a n val) s = .next (s.setOut (.egc s.cfg.egc.fgcm s.cfg.egc.mask)))

/-- The light sources that take their data from the Shifter: the host value is shifted through when the shift input is
CPU data, the mask is narrowed by the Shifter's mask, and the data is the table entry of `egc_rop` or the source quad. -/
def Obligations.LightsShifted : Prop :=
  ∀ (s : State) (a : BitVec 15) (n : PortWidth) (val : Half), alignedAt n a.toNat →
    ∃ u : State,
      (s.cfg.egc.shiftinput = true →
        runs2 (inRow n (laneOf a.toNat) ⟨val, val, val, val⟩) (outRow n (laneOf a.toNat)) s u) ∧
      (s.cfg.egc.shiftinput = false → u = s) ∧
      (∃ r q, exec (ropRow s.plat.patCode s.cfg.egc.rop a) u = .next r ∧ r.out = .quad q ∧
        exec (.egcLs1 a n val) s = .next (r.setOut (.egc q (s.cfg.egc.mask &&& u.srcMask)))) ∧
      (s.cfg.egc.fgc = 0#2 ∨ s.cfg.egc.fgc = 3#2 →
        exec (.egcLs2 a n val) s = .next (u.setOut (.egc u.egcSrc (s.cfg.egc.mask &&& u.srcMask))))

/-- Register loads: none; the tile registers from the snapshot; the tile registers from the planes' VRAM content; a byte
access loads its lane only. That the read row with both bits of `egc_regload` set ends as the load on write is log
entry 24. -/
def Obligations.RegisterLoads : Prop :=
  ∀ (s : State) (a : BitVec 15) (n : PortWidth), alignedAt n a.toNat →
    exec .egcRlNone s = .next (s.setOut .none) ∧
    (∃ t, exec (.egcRlRead false a n) s = .next t ∧ t.out = .none ∧ s.keepsBut [.tile, .out] t ∧
      ∀ p ln, getLane (t.tile.get p) ln =
        if n = .word ∨ ln = laneOf a.toNat then getLane (s.egcLast.get p) ln else getLane (s.tile.get p) ln) ∧
    (∃ t, exec (.egcRlWrite a n) s = .next t ∧ exec (.egcRlRead true a n) s = .next t ∧ t.out = .none ∧
      s.keepsBut [.tile, .out] t ∧
      ∀ p, loaded s (s.pa p a.toNat) n (laneOf a.toNat) (s.tile.get p) (t.tile.get p))

/-- The EGC write: register load first when load-on-write is selected, then the light source, then the write-back: in
every plane that is not excluded the bits under the effective mask take the data, every other bit of VRAM stays. -/
def Obligations.EgcWrite : Prop :=
  ∀ (s : State) (m : BitVec 2) (n : PortWidth) (off : BitVec 18) (val : Half), s.Inv → 19 ≤ s.plat.vmemBits →
    alignedAt n off.toNat →
    let a : BitVec 15 := off.setWidth 15
    let c := s.cfg.egc
    let o : Plane → Nat := fun p => s.pa p a.toNat
    ∃ s1 l t q mask,
      (if c.regload.getLsbD 1 then exec (.egcRlWrite a n) s = .next s1 else s1 = s) ∧
      exec (lightRow c.lightsource a n val) s1 = .next l ∧ l.out = .egc q mask ∧
      exec (.vopEgcWr m n off val) s = .next t ∧
      (∀ p k, c.access.getLsbD p.val = false → k < portBytes n →
        t.vramAt (s.wrap (o p + k)) =
          (s.vramAt (s.wrap (o p + k)) &&& ~~~getLane mask (laneAt n a.toNat k)) |||
            (getLane (q.get p) (laneAt n a.toNat k) &&& getLane mask (laneAt n a.toNat k))) ∧
      (∀ x, (∀ p, c.access.getLsbD p.val = false → s.outside (o p) (portBytes n) x) → t.vramAt x = s.vramAt x) ∧
      t.out = .none ∧ l.keepsBut [.vram, .out] t

/-- The EGC read: the snapshot, the register load on read, the Shifter fed from VRAM when the shift input selects it,
then the value: the lead plane's shifted part under compare (0 where that plane is excluded), else VRAM. The value at an
offset below 0x8000, outside the graphics region, is the model's choice (log entry 41). -/
def Obligations.EgcRead : Prop :=
  ∀ (s : State) (m : BitVec 2) (n : PortWidth) (off : BitVec 18), alignedAt n off.toNat →
    let a : BitVec 15 := off.setWidth 15
    let ln := laneOf a.toNat
    let c := s.cfg.egc
    ∃ (u v w : State) (val : Half),
      (∀ p, loaded s (s.pa p a.toNat) n ln (s.egcLast.get p) (u.egcLast.get p)) ∧ s.keepsBut [.egcLast, .out] u ∧
      (if c.regload.getLsbD 0 then exec (.egcRlRead false a n) u = .next v else v = u) ∧
      (if c.shiftinput then w = v else
        runs2 (inRow n ln ⟨sel n ln (u.egcLast.get 0), sel n ln (u.egcLast.get 1), sel n ln (u.egcLast.get 2),
          sel n ln (u.egcLast.get 3)⟩) (outRow n ln) v w) ∧
      val = (if c.compareLead then
          if c.access.getLsbD c.leadPlane.toNat then 0#16 else sel n ln (w.egcSrc.get c.leadPlane.toFin)
        else
          match n with
          | .byte => (s.vramAt (s.wrap (off.toNat + s.pageBase))).setWidth 16
          | .word => s.vramAt (s.wrap (off.toNat + s.pageBase + 1)) ++ s.vramAt (s.wrap (off.toNat + s.pageBase))) ∧
      exec (.vopEgcRd m n off) s = .next (w.setOut (Out.ofPort n val)) ∧ w.vram = s.vram

/-! ### The Shifter -/

/-- `reinit` loads every register of the Shifter from the configuration and touches nothing else, as the Shifter's
operation and as the environment's. -/
def Obligations.Reinit : Prop :=
  ∀ s : State,
    let c := s.cfg.egc
    let sb := c.shiftSrcbit.toNat % 8
    let db := c.shiftDstbit.toNat % 8
    ∃ t, exec .shReinit s = .next t ∧ exec .egcReinit s = .next t ∧ t.out = .none ∧ s.keepsBut [.sh, .out] t ∧
      t.sh.dec = c.shiftDescend ∧ t.sh.remain = c.shiftLength.toNat + 1 ∧ t.sh.dstbit = c.shiftDstbit.toNat ∧
      t.sh.srcbit = c.shiftSrcbit.toNat ∧ t.sh.bufi = (if c.shiftDescend then 499 else 0) ∧ t.sh.bufo = t.sh.bufi ∧
      (sb < db → t.sh.shr = db - sb ∧ t.sh.shl = 8 - t.sh.shr) ∧
      (db < sb → t.sh.shl = sb - db ∧ t.sh.shr = 8 - t.sh.shl) ∧ (sb = db → t.sh.shl = 0 ∧ t.sh.shr = 0) ∧
      t.sh.load = 0 ∧ t.sh.oSrcbit = sb ∧ t.sh.oDstbit = db

/-- The two inputs: the chunks are stored at the cursor, plane `p` four bytes further each, in address order; the counters
and cursors move only while at most 16 bits are staged; the mask of the lane, or of both lanes, is asserted. -/
def Obligations.ShiftInputs : Prop :=
  ∀ (s : State) (b : Plane → Byte) (q : Plane → Half) (odd : Bool), s.Inv →
    let x := s.sh
    let c := if x.dec then x.bufi + 511 else x.bufi
    (∃ t, exec (.shIn8 (b 0) (b 1) (b 2) (b 3) odd) s = .next t ∧ t.out = .none ∧
      s.keepsBut [.buf, .sh, .srcMask, .out] t ∧
      (∀ p : Plane, t.buf.read ((x.bufi + 4 * p.val) % 512) = b p) ∧
      (∀ k, (∀ p : Plane, k ≠ (x.bufi + 4 * p.val) % 512) → t.buf.read k = s.buf.read k) ∧
      getLane t.srcMask odd = 0xFF#8 ∧ getLane t.srcMask (!odd) = getLane s.srcMask (!odd) ∧
      t.sh = if x.load ≤ 16 then
          { x with
            bufi := moved x.dec 1 x.bufi
            load := if 8 ≤ x.srcbit then x.load else x.load + (8 - x.srcbit)
            srcbit := x.srcbit - 8 }
        else x) ∧
    (∃ t, exec (.shIn16 (q 0) (q 1) (q 2) (q 3)) s = .next t ∧ t.out = .none ∧
      s.keepsBut [.buf, .sh, .srcMask, .out] t ∧
      (∀ p : Plane, t.buf.read ((c + 4 * p.val) % 512) = getLane (q p) false ∧
        t.buf.read ((c + 4 * p.val + 1) % 512) = getLane (q p) true) ∧
      (∀ k, (∀ p : Plane, k ≠ (c + 4 * p.val) % 512 ∧ k ≠ (c + 4 * p.val + 1) % 512) → t.buf.read k = s.buf.read k) ∧
      t.srcMask = 0xFFFF#16 ∧
      t.sh = if x.load ≤ 16 then
          { x with
            bufi := moved x.dec 2 x.bufi
            bufo := if 8 ≤ x.srcbit then moved x.dec 1 x.bufo else x.bufo
            load := x.load + (16 - x.srcbit)
            srcbit := 0 }
        else x)

/-- The boundary mask, bit by bit: the first `remain` positions from the edge of the direction, moved by the destination
phase. -/
def Obligations.BoundaryMask : Prop :=
  ∀ s : State, s.sh.dstbit < 8 → ∃ m : Byte, exec .shDmask s = .next (s.setOut (.byte m)) ∧
    ∀ j, j < 8 → (m.getLsbD j = true ↔
      if s.sh.dec then s.sh.dstbit ≤ j ∧ j - s.sh.dstbit < s.sh.remain
      else j + s.sh.dstbit < 8 ∧ 7 - (j + s.sh.dstbit) < s.sh.remain)

/-- `output` for one lane as the word form calls it: a lane before the destination phase is skipped; otherwise its mask,
the remaining count and its data: a direct copy, the first byte's single shift, or two adjacent bytes combined. -/
def Obligations.ShiftOutLane : Prop :=
  ∀ (s : State) (ln : Bool), s.Inv →
    let x := s.sh
    let at' : Nat → Nat → Byte := fun cur k => s.buf.read ((cur + k) % 512)
    ∃ t, exec (.shOut8 ln true) s = .next t ∧ t.out = .none ∧ s.keepsBut [.egcSrc, .srcMask, .sh, .out] t ∧
      getLane t.srcMask (!ln) = getLane s.srcMask (!ln) ∧
      (∀ p, getLane (t.egcSrc.get p) (!ln) = getLane (s.egcSrc.get p) (!ln)) ∧
      (8 ≤ x.dstbit → t.sh = { x with dstbit := x.dstbit - 8 } ∧ getLane t.srcMask ln = 0x00#8 ∧ t.egcSrc = s.egcSrc) ∧
      (x.dstbit < 8 →
        (∃ m, exec .shDmask s = .next (s.setOut (.byte m)) ∧ getLane t.srcMask ln = m) ∧
        (if x.oSrcbit = x.oDstbit then
          t.sh = { x with remain := x.remain - (8 - x.dstbit), dstbit := 0, bufo := moved x.dec 1 x.bufo } ∧
          ∀ p : Plane, getLane (t.egcSrc.get p) ln = at' x.bufo (4 * p.val)
        else if x.oSrcbit < x.oDstbit ∧ x.dstbit ≠ 0 then
          t.sh = { x with remain := x.remain - (8 - x.dstbit), dstbit := 0 } ∧
          ∀ p : Plane, getLane (t.egcSrc.get p) ln =
            if x.dec then at' x.bufo (4 * p.val) <<< x.shr else at' x.bufo (4 * p.val) >>> x.shr
        else
          t.sh = { x with remain := x.remain - (8 - x.dstbit), dstbit := 0, bufo := moved x.dec 1 x.bufo } ∧
          ∀ p : Plane, getLane (t.egcSrc.get p) ln =
            if x.dec then
              (at' (moved true 1 x.bufo) (4 * p.val + 1) >>> x.shl) ||| (at' (moved true 1 x.bufo) (4 * p.val) <<< x.shr)
            else (at' x.bufo (4 * p.val) <<< x.shl) ||| (at' x.bufo (4 * p.val + 1) >>> x.shr)))

/-- The two outputs: with too little staged the mask is zeroed and nothing else happens; otherwise the staged count is
debited, the lane or both lanes in direction order are produced, and an exhausted transfer reinitialises the Shifter. -/
def Obligations.ShiftOutputs : Prop :=
  ∀ (s : State) (ln : Bool),
    let x := s.sh
    let again : State → State → Prop := fun v t =>
      if v.sh.remain = 0 then exec .shReinit v = .next t else t = v
    ((x.load : Int) < 8 - (x.dstbit : Int) → ∃ t, exec (.shOut8 ln false) s = .next t ∧ t.out = .none ∧
      getLane t.srcMask ln = 0x00#8 ∧ getLane t.srcMask (!ln) = getLane s.srcMask (!ln) ∧
      s.keepsBut [.srcMask, .out] t) ∧
    (8 - (x.dstbit : Int) ≤ (x.load : Int) → ∃ (k : Nat) (v t : State), (k : Int) = (x.load : Int) - (8 - (x.dstbit : Int)) ∧
      exec (.shOut8 ln true) (s.setSh { x with load := k }) = .next v ∧ exec (.shOut8 ln false) s = .next t ∧
      (if x.dstbit < 8 then again v t else t = v)) ∧
    (x.dstbit < 16 → x.load < 16 - x.dstbit →
      exec .shOut16 s = .next ((s.setSrcMask 0x0000#16).setOut .none)) ∧
    (x.dstbit < 16 → 16 - x.dstbit ≤ x.load → ∃ v t,
      runs2 (.shOut8 x.dec true) (.shOut8 (!x.dec) true) (s.setSh { x with load := x.load - (16 - x.dstbit) }) v ∧
      exec .shOut16 s = .next t ∧ again v t)

/-- With equal phases at 0 and nothing staged, a word goes through the Shifter unchanged in every plane, in both
directions; with 16 or more positions left its whole mask is asserted, with 8 left only the first byte lane's. -/
def Obligations.ShiftPassThrough : Prop :=
  ∀ (s : State) (q0 q1 q2 q3 : Half), s.Inv → s.sh.load = 0 → s.sh.srcbit = 0 → s.sh.dstbit = 0 →
    s.sh.oSrcbit = s.sh.oDstbit → s.sh.bufi = s.sh.bufo →
    ∃ t, runs2 (.shIn16 q0 q1 q2 q3) .shOut16 s t ∧ t.egcSrc = ⟨q0, q1, q2, q3⟩ ∧
      (16 ≤ s.sh.remain → t.srcMask = 0xFFFF#16) ∧
      (s.sh.remain = 8 → t.srcMask = if s.sh.dec then 0xFF00#16 else 0x00FF#16) ∧
      (s.sh.remain ≤ 16 → exec .shReinit t = .next t) ∧
      s.keepsBut [.buf, .sh, .egcSrc, .srcMask, .out] t

/-! ### The dispatcher -/

/-- DISPATCH runs the row of the tag that machine, vendor and configuration select. A `DISP` row stands for
Dispatch with that tag the selection (log entry 23); the snow switch and its text mode are log entry 17, that a legacy
machine goes before display mode `PC98` log entry 28. -/
def Obligations.DispatchSelects : Prop :=
  ∀ s : State,
    let d := s.cfg.disp
    let p := s.plat
    let is : Tag → Prop := fun h => ∃ t, exec (Instr.disp h) s = .next t ∧ exec .dispatch s = .next t
    let slow : Prop := s.cfg.planar.bitMask ≠ 0xFF#8
    (p.machine = .hercules → is .hercules) ∧ (p.machine = .tandy → is .tandy) ∧ (p.machine = .pcjr → is .pcjr) ∧
    (p.machine = .amstrad → is .amstrad) ∧
    (p.machine = .cga → (p.cgaSnow = true ∧ d.displayMode = .text → is .cgaSnowText) ∧
      (¬ (p.cgaSnow = true ∧ d.displayMode = .text) → is .text)) ∧
    (p.machine = .pc98 → is .pc98) ∧
    (p.machine = .egavga →
      (d.displayMode ∈ [DisplayMode.lin15, .lin16, .lin24, .lin32] → is .linear) ∧
      (d.displayMode = .vga8 →
        (d.chained = false → is .unchained) ∧ (d.chained = true → d.compatibleChain4 = false → is .linear) ∧
        (d.chained = true → d.compatibleChain4 = true →
          (p.vendor = .et4000 → (slow → is .chainedVgaEt4kSlow) ∧ (¬ slow → is .chainedVgaEt4k)) ∧
          (p.vendor = .other → (slow → is .chainedVgaSlow) ∧ (¬ slow → is .chainedVga)))) ∧
      (d.displayMode = .ega → (d.chained = true → is .chainedEga) ∧ (d.chained = false → is .unchained)) ∧
      (d.displayMode ∈ [DisplayMode.text, .cga2, .cga4] → is .text) ∧
      (d.displayMode = .pc98 → is .pc98) ∧ (d.displayMode = .other → is .unmapped))

/-- Dispatch with a windowed tag: the bank offsets are latched, the window's base and mask are taken, its pages are bound
to the tag, the pages of the linear framebuffer window to `LINEAR`, every other page is unmapped. That `TEXT` on an EGAVGA machine
is bound by the window is log entry 16, the page test of the framebuffer window log entry 19, that a `DISP` row is
Dispatch with that tag log entry 23, that `UNMAPPED` too takes the window's base and mask log entry 29, the pages of a
window whose base is not page aligned or that runs past 2^32 log entry 42, that a framebuffer window past 2^32 is not
wrapped log entry 39. -/
def Obligations.DispatchBindsWindow : Prop :=
  ∀ (s : State) (h : Tag), h.windowed = true ∨ (h = .text ∧ s.plat.machine = .egavga) →
    let k : Fin 4 := s.cfg.disp.windowSelect.toFin
    let first := s.plat.winBase[k].toNat / 4096
    ∃ t, exec (Instr.disp h) s = .next t ∧ t.out = .none ∧ s.keepsBut [.binding, .out] t ∧
      t.binding.bankReadFull.toNat = s.cfg.disp.bankRead * s.cfg.disp.bankSize % 2 ^ 32 ∧
      t.binding.bankWriteFull.toNat = s.cfg.disp.bankWrite * s.cfg.disp.bankSize % 2 ^ 32 ∧
      t.binding.pageBase = s.plat.winBase[k] ∧ t.binding.pageMask = [0x1FFFF#32, 0xFFFF#32, 0x7FFF#32, 0x7FFF#32].getD k.val 0 ∧
      ∀ addr : Word, t.handlerAt addr =
        if (s.lfbOf addr).isSome then .linear
        else if first ≤ addr.toNat / 4096 ∧ addr.toNat / 4096 < first + [32, 16, 8, 8].getD k.val 0 then h
        else .unmapped

/-- Dispatch with `PC98` binds 0xA0000..0xBFFFF, and 0xE0000..0xE7FFF when `analog16` is set, and nothing else but the
linear framebuffer window; the window base and mask stay (log entry 18). A legacy tag latches the banks and binds the
pages of the free value, where they are bound at all to that tag (log entry 15). A page of the framebuffer window is
`LINEAR` whatever the tag; its page test is log entry 19, that a window past 2^32 is not wrapped log entry 39, that a
`DISP` row is Dispatch with that tag log entry 23. -/
def Obligations.DispatchBindsPc98OrLegacy : Prop :=
  ∀ (s : State) (h : Tag), h.windowed = false → (h = .text → s.plat.machine ≠ .egavga) →
    ∃ t, exec (Instr.disp h) s = .next t ∧ t.out = .none ∧ s.keepsBut [.binding, .out] t ∧
      t.binding.bankReadFull.toNat = s.cfg.disp.bankRead * s.cfg.disp.bankSize % 2 ^ 32 ∧
      t.binding.bankWriteFull.toNat = s.cfg.disp.bankWrite * s.cfg.disp.bankSize % 2 ^ 32 ∧
      t.binding.pageBase = s.binding.pageBase ∧ t.binding.pageMask = s.binding.pageMask ∧
      ∀ addr : Word,
        (h = .pc98 → t.handlerAt addr =
          if (s.lfbOf addr).isSome then .linear
          else if 0xA0000 ≤ addr.toNat ∧ addr.toNat ≤ 0xBFFFF then .pc98
          else if s.cfg.pc98.analog16 = true ∧ 0xE0000 ≤ addr.toNat ∧ addr.toNat ≤ 0xE7FFF then .pc98
          else .unmapped) ∧
        (h ≠ .pc98 →
          if (s.lfbOf addr).isSome then t.handlerAt addr = .linear
          else t.handlerAt addr = h ∨ t.handlerAt addr = .unmapped)

/-- `BindWindow` completes for each value of the select and takes the selected window's base; at the default bases: base,
mask, the pages bound and the pages of 0xA0..0xBF left unmapped, pages outside 0xA0..0xBF as they were (log entry 23). -/
def Obligations.BindWindow : Prop :=
  ∀ (s : State) (h : Tag),
    (∀ x ∈ [(Instr.winsel0 h, (0 : Fin 4)), (.winsel1 h, 1), (.winsel2 h, 2), (.winsel3 h, 3)],
      ∃ t, exec x.1 s = .next t ∧ t.binding.pageBase = s.plat.winBase[x.2] ∧ t.out = .none ∧
        s.keepsBut [.binding, .out] t) ∧
    (s.plat.winBase = #v[0xA0000#32, 0xA0000#32, 0xB0000#32, 0xB8000#32] →
      ∀ row ∈ [(Instr.winsel0 h, 0xA0000#32, 0x1FFFF#32, 0xA0, 0xBF), (.winsel1 h, 0xA0000#32, 0xFFFF#32, 0xA0, 0xAF),
          (.winsel2 h, 0xB0000#32, 0x7FFF#32, 0xB0, 0xB7), (.winsel3 h, 0xB8000#32, 0x7FFF#32, 0xB8, 0xBF)],
        ∃ t, exec row.1 s = .next t ∧ t.binding.pageBase = row.2.1 ∧ t.binding.pageMask = row.2.2.1 ∧
          t.binding.bankReadFull = s.binding.bankReadFull ∧ t.binding.bankWriteFull = s.binding.bankWriteFull ∧
          ∀ addr : Word,
            let page := addr.toNat / 4096
            (row.2.2.2.1 ≤ page ∧ page ≤ row.2.2.2.2 → t.handlerAt addr = h) ∧
            (0xA0 ≤ page ∧ page ≤ 0xBF ∧ ¬ (row.2.2.2.1 ≤ page ∧ page ≤ row.2.2.2.2) → t.handlerAt addr = .unmapped) ∧
            (page < 0xA0 ∨ 0xBF < page → t.handlerAt addr = s.handlerAt addr))

/-- DISPATCH a second time changes nothing. -/
def Obligations.DispatchIdempotent : Prop :=
  ∀ s : State, ∃ t, exec .dispatch s = .next t ∧ exec .dispatch t = .next t

/-- After DISPATCH the fast chained tags are bound only where the bit mask was all ones, the slow ones only where it was
not. -/
def Obligations.FastChainedOnlyUnmasked : Prop :=
  ∀ (s t : State) (addr : Word), exec .dispatch s = .next t →
    (t.handlerAt addr = .chainedVga ∨ t.handlerAt addr = .chainedVgaEt4k → s.cfg.planar.bitMask = 0xFF#8) ∧
    (t.handlerAt addr = .chainedVgaSlow ∨ t.handlerAt addr = .chainedVgaEt4kSlow → s.cfg.planar.bitMask ≠ 0xFF#8)
end

