-- ==== Sys2Proof/Laws/Decode.lean ====
section
/-! SUPPORT. The packing and the code tables of the decoder, each undone by its inverse. -/

namespace Sys2Proof

theorem le16_bytes (v : Half) : le16 (v.extractLsb' 0 8) (v.extractLsb' 8 8) = v := by
  apply BitVec.eq_of_getLsbD_eq
  intro i hi
  have h := BitVec.getLsbD_append (x := v.extractLsb' 8 8) (y := v.extractLsb' 0 8) (i := i)
  simp only [BitVec.getLsbD_extractLsb'] at h
  refine h.trans ?_
  by_cases h8 : i < 8
  · simp [h8]
  · have : i - 8 < 8 := by omega
    simp [h8, this, show 8 + (i - 8) = i by omega]

theorem le16_getLsbD (b0 b1 : Byte) (i : Nat) :
    (le16 b0 b1).getLsbD i = if i < 8 then b0.getLsbD i else b1.getLsbD (i - 8) := by
  refine BitVec.getLsbD_append.trans ?_
  by_cases h : i < 8 <;> simp [h]

theorem le32_getLsbD (b0 b1 b2 b3 : Byte) (i : Nat) :
    (le32 b0 b1 b2 b3).getLsbD i =
      if i < 16 then (le16 b0 b1).getLsbD i else (le16 b2 b3).getLsbD (i - 16) := by
  refine (BitVec.getLsbD_append (x := le16 b2 b3) (y := le16 b0 b1)).trans ?_
  by_cases h : i < 16 <;> simp [h]

theorem le32_bytes (v : Word) : le32 (byteOf v 0) (byteOf v 1) (byteOf v 2) (byteOf v 3) = v := by
  apply BitVec.eq_of_getLsbD_eq
  intro i hi
  simp only [le32_getLsbD, le16_getLsbD, byteOf, BitVec.getLsbD_extractLsb']
  split_ifs
  · simp [*]
  · rw [show 8 * 1 + (i - 8) = i by omega]; simp; omega
  · rw [show 8 * 2 + (i - 16) = i by omega]; simp; omega
  · rw [show 8 * 3 + (i - 16 - 8) = i by omega]; simp; omega

/-- The ten bytes of a frame are read back as that frame. -/
@[simp] theorem Frame.ofBytes_bytes (f : Frame) : Frame.ofBytes f.bytes = .ok f := by
  simp [Frame.bytes, bytes16, bytes32, Frame.ofBytes, le16_bytes, le32_bytes]

/-- Decoding the ten bytes of a frame is decoding the frame. -/
theorem decode_bytes (pat : Option Byte) (f : Frame) : decode pat f.bytes = decodeFrame pat f := by
  simp [decode]

/-- Decoding nine record bytes is decoding their op byte, address and data. -/
theorem decodeRecord_bytes (op : Byte) (x y : Word) :
    decodeRecord (op :: (bytes32 x ++ bytes32 y)) = decodeOp op x y := by
  simp [decodeRecord, bytes32, le32_bytes]

@[simp] theorem Tag.ofCode_code (t : Tag) : Tag.ofCode t.code = some t := by cases t <;> rfl

@[simp] theorem Width.ofCode_code (w : Width) : Width.ofCode w.code = some w := by cases w <;> rfl

theorem Tag.code_lt (t : Tag) : t.code < 15 := by cases t <;> decide

theorem Width.code_lt (w : Width) : w.code < 3 := by cases w <;> decide

@[simp] theorem CfgField.ofId_id (f : CfgField) : CfgField.ofId f.id = some f := by
  cases f <;> first | rfl | (rename_i k; fin_cases k <;> rfl)

theorem packPort_getLsbD (n : PortWidth) (v : Half) (i : Nat) :
    (packPort n v).getLsbD i = if i < 16 then v.getLsbD i else decide (i = 16 ∧ n = .word) := by
  refine BitVec.getLsbD_append.trans ?_
  by_cases h : i < 16
  · simp [h]
  · cases n
    · simp [h]
    · simp only [h, if_false, and_true]
      by_cases h' : i = 16
      · subst h'; rfl
      · rw [decide_eq_false h']
        simp; omega

@[simp] theorem portWidth_packPort (n : PortWidth) (v : Half) : portWidth (packPort n v) = n := by
  unfold portWidth
  rw [packPort_getLsbD]
  cases n <;> rfl

@[simp] theorem portValue_packPort (n : PortWidth) (v : Half) : portValue (packPort n v) = v := by
  apply BitVec.eq_of_getLsbD_eq
  intro i hi
  simp [portValue, packPort_getLsbD, hi]

@[simp] theorem planeOf_packPlane (p : Plane) : planeOf (packPlane p) = p := by
  fin_cases p <;> rfl

end Sys2Proof
end

