-- ==== Sys2Proof/Laws/Memory.lean ====
section
/-! SUPPORT. The canonical form of a memory: what reads and writes do, and that every write keeps the form. -/

namespace Sys2Proof.Machine

/-! ### The canonical form, in terms of its entries -/

/-- The canonical form says two things of the list: addresses strictly rising, no entry an unlisted byte. -/
theorem Memory.wf_iff (m : Memory) :
    m.wf = true ↔ m.Pairwise (fun c d => c.1 < d.1) ∧ ∀ c ∈ m, c.2 ≠ Memory.unlisted := by
  induction m with
  | nil => simp [Memory.wf]
  | cons c m ih =>
    obtain ⟨a, v⟩ := c
    cases m with
    | nil => simp [Memory.wf]
    | cons d m =>
      obtain ⟨b, w⟩ := d
      simp only [Memory.wf, Bool.and_eq_true, bne_iff_ne, ne_eq, decide_eq_true_eq]
      constructor
      · rintro ⟨⟨hv, hab⟩, hm⟩
        obtain ⟨hp, hu⟩ := ih.1 hm
        refine ⟨List.pairwise_cons.2 ⟨?_, hp⟩, ?_⟩
        · intro c hc
          rcases List.mem_cons.1 hc with rfl | hc
          · exact hab
          · exact Nat.lt_trans hab ((List.pairwise_cons.1 hp).1 c hc)
        · intro c hc
          rcases List.mem_cons.1 hc with rfl | hc
          · exact hv
          · exact hu c hc
      · rintro ⟨hp, hu⟩
        obtain ⟨h1, h2⟩ := List.pairwise_cons.1 hp
        exact ⟨⟨hu (a, v) (by simp), h1 (b, w) (by simp)⟩, ih.2 ⟨h2, fun c hc => hu c (by simp [hc])⟩⟩

theorem Memory.wf_tail {c : Host.Cell} {m : Memory} (h : Memory.wf (c :: m) = true) : m.wf = true := by
  rw [Memory.wf_iff] at h ⊢
  exact ⟨(List.pairwise_cons.1 h.1).2, fun d hd => h.2 d (by simp [hd])⟩

/-! ### Reads -/

@[simp] theorem Memory.read_nil (x : Nat) : Memory.read [] x = Memory.unlisted := rfl

/-- An address that no entry names reads as an unlisted byte. -/
theorem Memory.read_of_not_listed {m : Memory} {x : Nat} (h : ∀ c ∈ m, c.1 ≠ x) : m.read x = Memory.unlisted := by
  induction m with
  | nil => rfl
  | cons c m ih =>
    obtain ⟨a, v⟩ := c
    have ha : a ≠ x := h (a, v) (by simp)
    simp only [Memory.read, if_neg ha]
    exact ih fun d hd => h d (by simp [hd])

/-- Below the first entry's address nothing is listed. -/
theorem Memory.read_below_head {a x : Nat} {v : Byte} {m : Memory} (h : Memory.wf ((a, v) :: m) = true) (hx : x < a) :
    Memory.read ((a, v) :: m) x = Memory.unlisted := by
  apply Memory.read_of_not_listed
  intro c hc
  rw [Memory.wf_iff] at h
  rcases List.mem_cons.1 hc with rfl | hc
  · exact Nat.ne_of_gt hx
  · exact Nat.ne_of_gt (Nat.lt_trans hx ((List.pairwise_cons.1 h.1).1 c hc))

/-- At the first entry's address the rest of the list has nothing. -/
theorem Memory.read_tail_head {a : Nat} {v : Byte} {m : Memory} (h : Memory.wf ((a, v) :: m) = true) :
    Memory.read m a = Memory.unlisted := by
  apply Memory.read_of_not_listed
  intro c hc
  rw [Memory.wf_iff] at h
  exact Nat.ne_of_gt ((List.pairwise_cons.1 h.1).1 c hc)

/-- Two memories in canonical form that read alike everywhere are equal data. -/
theorem Memory.ext_of_wf {m m' : Memory} (h : m.wf = true) (h' : m'.wf = true) (e : ∀ x, m.read x = m'.read x) :
    m = m' := by
  induction m generalizing m' with
  | nil =>
    cases m' with
    | nil => rfl
    | cons c m' =>
      obtain ⟨a, v⟩ := c
      have := e a
      rw [Memory.wf_iff] at h'
      simp only [Memory.read, if_true] at this
      exact absurd this.symm (h'.2 (a, v) (by simp))
  | cons c m ih =>
    obtain ⟨a, v⟩ := c
    have hv : v ≠ Memory.unlisted := ((Memory.wf_iff _).1 h).2 (a, v) (by simp)
    cases m' with
    | nil =>
      have := e a
      simp only [Memory.read, if_true] at this
      exact absurd this hv
    | cons d m' =>
      obtain ⟨b, w⟩ := d
      have hw : w ≠ Memory.unlisted := ((Memory.wf_iff _).1 h').2 (b, w) (by simp)
      have hab : a = b := by
        rcases Nat.lt_trichotomy a b with hlt | heq | hgt
        · have := e a
          rw [Memory.read_below_head h' hlt] at this
          simp only [Memory.read, if_true] at this
          exact absurd this hv
        · exact heq
        · have := e b
          rw [Memory.read_below_head h hgt] at this
          simp only [Memory.read, if_true] at this
          exact absurd this.symm hw
      subst hab
      have hvw : v = w := by simpa [Memory.read] using e a
      subst hvw
      rw [ih (Memory.wf_tail h) (Memory.wf_tail h')]
      intro x
      by_cases hx : a = x
      · subst hx; rw [Memory.read_tail_head h, Memory.read_tail_head h']
      · simpa [Memory.read, hx] using e x

/-! ### Writes -/

/-- What the entries of a memory after a write are: the written one, or entries of the memory before. -/
theorem Memory.mem_write {m : Memory} {x : Nat} {v : Byte} {c : Host.Cell} (h : c ∈ m.write x v) :
    (c = (x, v) ∧ v ≠ Memory.unlisted) ∨ c ∈ m := by
  induction m with
  | nil =>
    simp only [Memory.write] at h
    split at h
    · simp at h
    · exact .inl ⟨by simpa using h, by assumption⟩
  | cons d m ih =>
    obtain ⟨a, w⟩ := d
    simp only [Memory.write] at h
    split at h
    · split at h
      · exact .inr h
      · rcases List.mem_cons.1 h with rfl | h
        · exact .inl ⟨rfl, by assumption⟩
        · exact .inr h
    · split at h
      · split at h
        · exact .inr (by simp [h])
        · rcases List.mem_cons.1 h with rfl | h
          · exact .inl ⟨rfl, by assumption⟩
          · exact .inr (by simp [h])
      · rcases List.mem_cons.1 h with rfl | h
        · exact .inr (by simp)
        · rcases ih h with h | h
          · exact .inl h
          · exact .inr (by simp [h])

/-- A write keeps the canonical form. -/
theorem Memory.write_wf {m : Memory} (h : m.wf = true) (x : Nat) (v : Byte) : (m.write x v).wf = true := by
  rw [Memory.wf_iff]
  refine ⟨?_, fun c hc => ?_⟩
  · induction m with
    | nil => simp only [Memory.write]; split <;> simp
    | cons d m ih =>
      obtain ⟨a, w⟩ := d
      have hp := ((Memory.wf_iff _).1 h).1
      obtain ⟨h1, h2⟩ := List.pairwise_cons.1 hp
      simp only [Memory.write]
      split
      · split
        · exact hp
        · refine List.pairwise_cons.2 ⟨fun c hc => ?_, hp⟩
          rcases List.mem_cons.1 hc with rfl | hc
          · assumption
          · exact Nat.lt_trans (by assumption) (h1 c hc)
      · split
        · split
          · exact h2
          · subst x
            exact List.pairwise_cons.2 ⟨h1, h2⟩
        · refine List.pairwise_cons.2 ⟨fun c hc => ?_, ih (Memory.wf_tail h)⟩
          rcases Memory.mem_write hc with ⟨rfl, _⟩ | hc
          · simp only; omega
          · exact h1 c hc
  · rcases Memory.mem_write hc with ⟨rfl, hv⟩ | hc
    · exact hv
    · exact ((Memory.wf_iff _).1 h).2 c hc

/-- A write keeps a bound on the addresses. -/
theorem Memory.write_below {m : Memory} {n : Nat} (h : m.below n = true) {x : Nat} (hx : x < n) (v : Byte) :
    (m.write x v).below n = true := by
  simp only [Memory.below, List.all_eq_true, decide_eq_true_eq] at h ⊢
  intro c hc
  rcases Memory.mem_write hc with ⟨rfl, _⟩ | hc
  · exact hx
  · exact h c hc

/-- What a memory in canonical form reads after a write: the written byte there, as before elsewhere. -/
theorem Memory.read_write {m : Memory} (h : m.wf = true) (x y : Nat) (v : Byte) :
    (m.write x v).read y = if y = x then v else m.read y := by
  induction m with
  | nil =>
    simp only [Memory.write]
    by_cases hv : v = Memory.unlisted
    · simp [hv]
    · by_cases hy : y = x
      · simp [hv, Memory.read, hy]
      · simp [hv, Memory.read, hy, Ne.symm hy]
  | cons d m ih =>
    obtain ⟨a, w⟩ := d
    simp only [Memory.write]
    split
    · rename_i hxa
      by_cases hy : y = x
      · subst hy
        split
        · rename_i hv; simp [Memory.read_below_head h hxa, hv]
        · simp [Memory.read]
      · split
        · simp
        · simp [Memory.read, Ne.symm hy]
    · split
      · rename_i hxa
        subst hxa
        by_cases hy : y = x
        · subst hy
          split
          · rename_i hv; simp [Memory.read_tail_head h, hv]
          · simp [Memory.read]
        · split
          · simp [Memory.read, Ne.symm hy]
          · simp [Memory.read, Ne.symm hy]
      · rename_i h1 h2
        simp only [Memory.read]
        by_cases ha : a = y
        · subst ha; simp [Ne.symm h2]
        · simp only [if_neg ha]; exact ih (Memory.wf_tail h)

theorem Memory.read_write_same {m : Memory} (h : m.wf = true) (x : Nat) (v : Byte) : (m.write x v).read x = v := by
  simp [Memory.read_write h]

theorem Memory.read_write_other {m : Memory} (h : m.wf = true) {x y : Nat} (hy : y ≠ x) (v : Byte) :
    (m.write x v).read y = m.read y := by
  simp [Memory.read_write h, hy]

/-- Writing back what an address reads as changes nothing. -/
theorem Memory.write_read {m : Memory} (h : m.wf = true) (x : Nat) : m.write x (m.read x) = m :=
  Memory.ext_of_wf (Memory.write_wf h _ _) h fun y => by
    rw [Memory.read_write h]
    split <;> simp_all

end Sys2Proof.Machine
end

