-- ==== Sys2Proof/Laws/State.lean ====
section
/-! SUPPORT. One lemma per field per update of the State, each true by `rfl`. -/

namespace Sys2Proof.Machine

@[simp] theorem State.setCfg_plat (s : State) (x : ExtConfig) : (s.setCfg x).plat = s.plat := rfl
@[simp] theorem State.setCfg_cfg (s : State) (x : ExtConfig) : (s.setCfg x).cfg = x := rfl
@[simp] theorem State.setCfg_vram (s : State) (x : ExtConfig) : (s.setCfg x).vram = s.vram := rfl
@[simp] theorem State.setCfg_latch (s : State) (x : ExtConfig) : (s.setCfg x).latch = s.latch := rfl
@[simp] theorem State.setCfg_tile (s : State) (x : ExtConfig) : (s.setCfg x).tile = s.tile := rfl
@[simp] theorem State.setCfg_egcSrc (s : State) (x : ExtConfig) : (s.setCfg x).egcSrc = s.egcSrc := rfl
@[simp] theorem State.setCfg_egcLast (s : State) (x : ExtConfig) : (s.setCfg x).egcLast = s.egcLast := rfl
@[simp] theorem State.setCfg_srcMask (s : State) (x : ExtConfig) : (s.setCfg x).srcMask = s.srcMask := rfl
@[simp] theorem State.setCfg_sh (s : State) (x : ExtConfig) : (s.setCfg x).sh = s.sh := rfl
@[simp] theorem State.setCfg_buf (s : State) (x : ExtConfig) : (s.setCfg x).buf = s.buf := rfl
@[simp] theorem State.setCfg_logged (s : State) (x : ExtConfig) : (s.setCfg x).logged = s.logged := rfl
@[simp] theorem State.setCfg_binding (s : State) (x : ExtConfig) : (s.setCfg x).binding = s.binding := rfl
@[simp] theorem State.setCfg_cyclesLeft (s : State) (x : ExtConfig) : (s.setCfg x).cyclesLeft = s.cyclesLeft := rfl
@[simp] theorem State.setCfg_out (s : State) (x : ExtConfig) : (s.setCfg x).out = s.out := rfl
@[simp] theorem State.setCfg_input (s : State) (x : ExtConfig) : (s.setCfg x).input = s.input := rfl

@[simp] theorem State.setVram_plat (s : State) (x : Memory) : (s.setVram x).plat = s.plat := rfl
@[simp] theorem State.setVram_cfg (s : State) (x : Memory) : (s.setVram x).cfg = s.cfg := rfl
@[simp] theorem State.setVram_vram (s : State) (x : Memory) : (s.setVram x).vram = x := rfl
@[simp] theorem State.setVram_latch (s : State) (x : Memory) : (s.setVram x).latch = s.latch := rfl
@[simp] theorem State.setVram_tile (s : State) (x : Memory) : (s.setVram x).tile = s.tile := rfl
@[simp] theorem State.setVram_egcSrc (s : State) (x : Memory) : (s.setVram x).egcSrc = s.egcSrc := rfl
@[simp] theorem State.setVram_egcLast (s : State) (x : Memory) : (s.setVram x).egcLast = s.egcLast := rfl
@[simp] theorem State.setVram_srcMask (s : State) (x : Memory) : (s.setVram x).srcMask = s.srcMask := rfl
@[simp] theorem State.setVram_sh (s : State) (x : Memory) : (s.setVram x).sh = s.sh := rfl
@[simp] theorem State.setVram_buf (s : State) (x : Memory) : (s.setVram x).buf = s.buf := rfl
@[simp] theorem State.setVram_logged (s : State) (x : Memory) : (s.setVram x).logged = s.logged := rfl
@[simp] theorem State.setVram_binding (s : State) (x : Memory) : (s.setVram x).binding = s.binding := rfl
@[simp] theorem State.setVram_cyclesLeft (s : State) (x : Memory) : (s.setVram x).cyclesLeft = s.cyclesLeft := rfl
@[simp] theorem State.setVram_out (s : State) (x : Memory) : (s.setVram x).out = s.out := rfl
@[simp] theorem State.setVram_input (s : State) (x : Memory) : (s.setVram x).input = s.input := rfl

@[simp] theorem State.setLatch_plat (s : State) (x : Word) : (s.setLatch x).plat = s.plat := rfl
@[simp] theorem State.setLatch_cfg (s : State) (x : Word) : (s.setLatch x).cfg = s.cfg := rfl
@[simp] theorem State.setLatch_vram (s : State) (x : Word) : (s.setLatch x).vram = s.vram := rfl
@[simp] theorem State.setLatch_latch (s : State) (x : Word) : (s.setLatch x).latch = x := rfl
@[simp] theorem State.setLatch_tile (s : State) (x : Word) : (s.setLatch x).tile = s.tile := rfl
@[simp] theorem State.setLatch_egcSrc (s : State) (x : Word) : (s.setLatch x).egcSrc = s.egcSrc := rfl
@[simp] theorem State.setLatch_egcLast (s : State) (x : Word) : (s.setLatch x).egcLast = s.egcLast := rfl
@[simp] theorem State.setLatch_srcMask (s : State) (x : Word) : (s.setLatch x).srcMask = s.srcMask := rfl
@[simp] theorem State.setLatch_sh (s : State) (x : Word) : (s.setLatch x).sh = s.sh := rfl
@[simp] theorem State.setLatch_buf (s : State) (x : Word) : (s.setLatch x).buf = s.buf := rfl
@[simp] theorem State.setLatch_logged (s : State) (x : Word) : (s.setLatch x).logged = s.logged := rfl
@[simp] theorem State.setLatch_binding (s : State) (x : Word) : (s.setLatch x).binding = s.binding := rfl
@[simp] theorem State.setLatch_cyclesLeft (s : State) (x : Word) : (s.setLatch x).cyclesLeft = s.cyclesLeft := rfl
@[simp] theorem State.setLatch_out (s : State) (x : Word) : (s.setLatch x).out = s.out := rfl
@[simp] theorem State.setLatch_input (s : State) (x : Word) : (s.setLatch x).input = s.input := rfl

@[simp] theorem State.setTile_plat (s : State) (x : Quad) : (s.setTile x).plat = s.plat := rfl
@[simp] theorem State.setTile_cfg (s : State) (x : Quad) : (s.setTile x).cfg = s.cfg := rfl
@[simp] theorem State.setTile_vram (s : State) (x : Quad) : (s.setTile x).vram = s.vram := rfl
@[simp] theorem State.setTile_latch (s : State) (x : Quad) : (s.setTile x).latch = s.latch := rfl
@[simp] theorem State.setTile_tile (s : State) (x : Quad) : (s.setTile x).tile = x := rfl
@[simp] theorem State.setTile_egcSrc (s : State) (x : Quad) : (s.setTile x).egcSrc = s.egcSrc := rfl
@[simp] theorem State.setTile_egcLast (s : State) (x : Quad) : (s.setTile x).egcLast = s.egcLast := rfl
@[simp] theorem State.setTile_srcMask (s : State) (x : Quad) : (s.setTile x).srcMask = s.srcMask := rfl
@[simp] theorem State.setTile_sh (s : State) (x : Quad) : (s.setTile x).sh = s.sh := rfl
@[simp] theorem State.setTile_buf (s : State) (x : Quad) : (s.setTile x).buf = s.buf := rfl
@[simp] theorem State.setTile_logged (s : State) (x : Quad) : (s.setTile x).logged = s.logged := rfl
@[simp] theorem State.setTile_binding (s : State) (x : Quad) : (s.setTile x).binding = s.binding := rfl
@[simp] theorem State.setTile_cyclesLeft (s : State) (x : Quad) : (s.setTile x).cyclesLeft = s.cyclesLeft := rfl
@[simp] theorem State.setTile_out (s : State) (x : Quad) : (s.setTile x).out = s.out := rfl
@[simp] theorem State.setTile_input (s : State) (x : Quad) : (s.setTile x).input = s.input := rfl

@[simp] theorem State.setEgcSrc_plat (s : State) (x : Quad) : (s.setEgcSrc x).plat = s.plat := rfl
@[simp] theorem State.setEgcSrc_cfg (s : State) (x : Quad) : (s.setEgcSrc x).cfg = s.cfg := rfl
@[simp] theorem State.setEgcSrc_vram (s : State) (x : Quad) : (s.setEgcSrc x).vram = s.vram := rfl
@[simp] theorem State.setEgcSrc_latch (s : State) (x : Quad) : (s.setEgcSrc x).latch = s.latch := rfl
@[simp] theorem State.setEgcSrc_tile (s : State) (x : Quad) : (s.setEgcSrc x).tile = s.tile := rfl
@[simp] theorem State.setEgcSrc_egcSrc (s : State) (x : Quad) : (s.setEgcSrc x).egcSrc = x := rfl
@[simp] theorem State.setEgcSrc_egcLast (s : State) (x : Quad) : (s.setEgcSrc x).egcLast = s.egcLast := rfl
@[simp] theorem State.setEgcSrc_srcMask (s : State) (x : Quad) : (s.setEgcSrc x).srcMask = s.srcMask := rfl
@[simp] theorem State.setEgcSrc_sh (s : State) (x : Quad) : (s.setEgcSrc x).sh = s.sh := rfl
@[simp] theorem State.setEgcSrc_buf (s : State) (x : Quad) : (s.setEgcSrc x).buf = s.buf := rfl
@[simp] theorem State.setEgcSrc_logged (s : State) (x : Quad) : (s.setEgcSrc x).logged = s.logged := rfl
@[simp] theorem State.setEgcSrc_binding (s : State) (x : Quad) : (s.setEgcSrc x).binding = s.binding := rfl
@[simp] theorem State.setEgcSrc_cyclesLeft (s : State) (x : Quad) : (s.setEgcSrc x).cyclesLeft = s.cyclesLeft := rfl
@[simp] theorem State.setEgcSrc_out (s : State) (x : Quad) : (s.setEgcSrc x).out = s.out := rfl
@[simp] theorem State.setEgcSrc_input (s : State) (x : Quad) : (s.setEgcSrc x).input = s.input := rfl

@[simp] theorem State.setEgcLast_plat (s : State) (x : Quad) : (s.setEgcLast x).plat = s.plat := rfl
@[simp] theorem State.setEgcLast_cfg (s : State) (x : Quad) : (s.setEgcLast x).cfg = s.cfg := rfl
@[simp] theorem State.setEgcLast_vram (s : State) (x : Quad) : (s.setEgcLast x).vram = s.vram := rfl
@[simp] theorem State.setEgcLast_latch (s : State) (x : Quad) : (s.setEgcLast x).latch = s.latch := rfl
@[simp] theorem State.setEgcLast_tile (s : State) (x : Quad) : (s.setEgcLast x).tile = s.tile := rfl
@[simp] theorem State.setEgcLast_egcSrc (s : State) (x : Quad) : (s.setEgcLast x).egcSrc = s.egcSrc := rfl
@[simp] theorem State.setEgcLast_egcLast (s : State) (x : Quad) : (s.setEgcLast x).egcLast = x := rfl
@[simp] theorem State.setEgcLast_srcMask (s : State) (x : Quad) : (s.setEgcLast x).srcMask = s.srcMask := rfl
@[simp] theorem State.setEgcLast_sh (s : State) (x : Quad) : (s.setEgcLast x).sh = s.sh := rfl
@[simp] theorem State.setEgcLast_buf (s : State) (x : Quad) : (s.setEgcLast x).buf = s.buf := rfl
@[simp] theorem State.setEgcLast_logged (s : State) (x : Quad) : (s.setEgcLast x).logged = s.logged := rfl
@[simp] theorem State.setEgcLast_binding (s : State) (x : Quad) : (s.setEgcLast x).binding = s.binding := rfl
@[simp] theorem State.setEgcLast_cyclesLeft (s : State) (x : Quad) : (s.setEgcLast x).cyclesLeft = s.cyclesLeft := rfl
@[simp] theorem State.setEgcLast_out (s : State) (x : Quad) : (s.setEgcLast x).out = s.out := rfl
@[simp] theorem State.setEgcLast_input (s : State) (x : Quad) : (s.setEgcLast x).input = s.input := rfl

@[simp] theorem State.setSrcMask_plat (s : State) (x : Half) : (s.setSrcMask x).plat = s.plat := rfl
@[simp] theorem State.setSrcMask_cfg (s : State) (x : Half) : (s.setSrcMask x).cfg = s.cfg := rfl
@[simp] theorem State.setSrcMask_vram (s : State) (x : Half) : (s.setSrcMask x).vram = s.vram := rfl
@[simp] theorem State.setSrcMask_latch (s : State) (x : Half) : (s.setSrcMask x).latch = s.latch := rfl
@[simp] theorem State.setSrcMask_tile (s : State) (x : Half) : (s.setSrcMask x).tile = s.tile := rfl
@[simp] theorem State.setSrcMask_egcSrc (s : State) (x : Half) : (s.setSrcMask x).egcSrc = s.egcSrc := rfl
@[simp] theorem State.setSrcMask_egcLast (s : State) (x : Half) : (s.setSrcMask x).egcLast = s.egcLast := rfl
@[simp] theorem State.setSrcMask_srcMask (s : State) (x : Half) : (s.setSrcMask x).srcMask = x := rfl
@[simp] theorem State.setSrcMask_sh (s : State) (x : Half) : (s.setSrcMask x).sh = s.sh := rfl
@[simp] theorem State.setSrcMask_buf (s : State) (x : Half) : (s.setSrcMask x).buf = s.buf := rfl
@[simp] theorem State.setSrcMask_logged (s : State) (x : Half) : (s.setSrcMask x).logged = s.logged := rfl
@[simp] theorem State.setSrcMask_binding (s : State) (x : Half) : (s.setSrcMask x).binding = s.binding := rfl
@[simp] theorem State.setSrcMask_cyclesLeft (s : State) (x : Half) : (s.setSrcMask x).cyclesLeft = s.cyclesLeft := rfl
@[simp] theorem State.setSrcMask_out (s : State) (x : Half) : (s.setSrcMask x).out = s.out := rfl
@[simp] theorem State.setSrcMask_input (s : State) (x : Half) : (s.setSrcMask x).input = s.input := rfl

@[simp] theorem State.setSh_plat (s : State) (x : Shifter) : (s.setSh x).plat = s.plat := rfl
@[simp] theorem State.setSh_cfg (s : State) (x : Shifter) : (s.setSh x).cfg = s.cfg := rfl
@[simp] theorem State.setSh_vram (s : State) (x : Shifter) : (s.setSh x).vram = s.vram := rfl
@[simp] theorem State.setSh_latch (s : State) (x : Shifter) : (s.setSh x).latch = s.latch := rfl
@[simp] theorem State.setSh_tile (s : State) (x : Shifter) : (s.setSh x).tile = s.tile := rfl
@[simp] theorem State.setSh_egcSrc (s : State) (x : Shifter) : (s.setSh x).egcSrc = s.egcSrc := rfl
@[simp] theorem State.setSh_egcLast (s : State) (x : Shifter) : (s.setSh x).egcLast = s.egcLast := rfl
@[simp] theorem State.setSh_srcMask (s : State) (x : Shifter) : (s.setSh x).srcMask = s.srcMask := rfl
@[simp] theorem State.setSh_sh (s : State) (x : Shifter) : (s.setSh x).sh = x := rfl
@[simp] theorem State.setSh_buf (s : State) (x : Shifter) : (s.setSh x).buf = s.buf := rfl
@[simp] theorem State.setSh_logged (s : State) (x : Shifter) : (s.setSh x).logged = s.logged := rfl
@[simp] theorem State.setSh_binding (s : State) (x : Shifter) : (s.setSh x).binding = s.binding := rfl
@[simp] theorem State.setSh_cyclesLeft (s : State) (x : Shifter) : (s.setSh x).cyclesLeft = s.cyclesLeft := rfl
@[simp] theorem State.setSh_out (s : State) (x : Shifter) : (s.setSh x).out = s.out := rfl
@[simp] theorem State.setSh_input (s : State) (x : Shifter) : (s.setSh x).input = s.input := rfl

@[simp] theorem State.setBuf_plat (s : State) (x : Memory) : (s.setBuf x).plat = s.plat := rfl
@[simp] theorem State.setBuf_cfg (s : State) (x : Memory) : (s.setBuf x).cfg = s.cfg := rfl
@[simp] theorem State.setBuf_vram (s : State) (x : Memory) : (s.setBuf x).vram = s.vram := rfl
@[simp] theorem State.setBuf_latch (s : State) (x : Memory) : (s.setBuf x).latch = s.latch := rfl
@[simp] theorem State.setBuf_tile (s : State) (x : Memory) : (s.setBuf x).tile = s.tile := rfl
@[simp] theorem State.setBuf_egcSrc (s : State) (x : Memory) : (s.setBuf x).egcSrc = s.egcSrc := rfl
@[simp] theorem State.setBuf_egcLast (s : State) (x : Memory) : (s.setBuf x).egcLast = s.egcLast := rfl
@[simp] theorem State.setBuf_srcMask (s : State) (x : Memory) : (s.setBuf x).srcMask = s.srcMask := rfl
@[simp] theorem State.setBuf_sh (s : State) (x : Memory) : (s.setBuf x).sh = s.sh := rfl
@[simp] theorem State.setBuf_buf (s : State) (x : Memory) : (s.setBuf x).buf = x := rfl
@[simp] theorem State.setBuf_logged (s : State) (x : Memory) : (s.setBuf x).logged = s.logged := rfl
@[simp] theorem State.setBuf_binding (s : State) (x : Memory) : (s.setBuf x).binding = s.binding := rfl
@[simp] theorem State.setBuf_cyclesLeft (s : State) (x : Memory) : (s.setBuf x).cyclesLeft = s.cyclesLeft := rfl
@[simp] theorem State.setBuf_out (s : State) (x : Memory) : (s.setBuf x).out = s.out := rfl
@[simp] theorem State.setBuf_input (s : State) (x : Memory) : (s.setBuf x).input = s.input := rfl

@[simp] theorem State.setLogged_plat (s : State) (x : List LogMark) : (s.setLogged x).plat = s.plat := rfl
@[simp] theorem State.setLogged_cfg (s : State) (x : List LogMark) : (s.setLogged x).cfg = s.cfg := rfl
@[simp] theorem State.setLogged_vram (s : State) (x : List LogMark) : (s.setLogged x).vram = s.vram := rfl
@[simp] theorem State.setLogged_latch (s : State) (x : List LogMark) : (s.setLogged x).latch = s.latch := rfl
@[simp] theorem State.setLogged_tile (s : State) (x : List LogMark) : (s.setLogged x).tile = s.tile := rfl
@[simp] theorem State.setLogged_egcSrc (s : State) (x : List LogMark) : (s.setLogged x).egcSrc = s.egcSrc := rfl
@[simp] theorem State.setLogged_egcLast (s : State) (x : List LogMark) : (s.setLogged x).egcLast = s.egcLast := rfl
@[simp] theorem State.setLogged_srcMask (s : State) (x : List LogMark) : (s.setLogged x).srcMask = s.srcMask := rfl
@[simp] theorem State.setLogged_sh (s : State) (x : List LogMark) : (s.setLogged x).sh = s.sh := rfl
@[simp] theorem State.setLogged_buf (s : State) (x : List LogMark) : (s.setLogged x).buf = s.buf := rfl
@[simp] theorem State.setLogged_logged (s : State) (x : List LogMark) : (s.setLogged x).logged = x := rfl
@[simp] theorem State.setLogged_binding (s : State) (x : List LogMark) : (s.setLogged x).binding = s.binding := rfl
@[simp] theorem State.setLogged_cyclesLeft (s : State) (x : List LogMark) : (s.setLogged x).cyclesLeft = s.cyclesLeft := rfl
@[simp] theorem State.setLogged_out (s : State) (x : List LogMark) : (s.setLogged x).out = s.out := rfl
@[simp] theorem State.setLogged_input (s : State) (x : List LogMark) : (s.setLogged x).input = s.input := rfl

@[simp] theorem State.setBinding_plat (s : State) (x : Binding) : (s.setBinding x).plat = s.plat := rfl
@[simp] theorem State.setBinding_cfg (s : State) (x : Binding) : (s.setBinding x).cfg = s.cfg := rfl
@[simp] theorem State.setBinding_vram (s : State) (x : Binding) : (s.setBinding x).vram = s.vram := rfl
@[simp] theorem State.setBinding_latch (s : State) (x : Binding) : (s.setBinding x).latch = s.latch := rfl
@[simp] theorem State.setBinding_tile (s : State) (x : Binding) : (s.setBinding x).tile = s.tile := rfl
@[simp] theorem State.setBinding_egcSrc (s : State) (x : Binding) : (s.setBinding x).egcSrc = s.egcSrc := rfl
@[simp] theorem State.setBinding_egcLast (s : State) (x : Binding) : (s.setBinding x).egcLast = s.egcLast := rfl
@[simp] theorem State.setBinding_srcMask (s : State) (x : Binding) : (s.setBinding x).srcMask = s.srcMask := rfl
@[simp] theorem State.setBinding_sh (s : State) (x : Binding) : (s.setBinding x).sh = s.sh := rfl
@[simp] theorem State.setBinding_buf (s : State) (x : Binding) : (s.setBinding x).buf = s.buf := rfl
@[simp] theorem State.setBinding_logged (s : State) (x : Binding) : (s.setBinding x).logged = s.logged := rfl
@[simp] theorem State.setBinding_binding (s : State) (x : Binding) : (s.setBinding x).binding = x := rfl
@[simp] theorem State.setBinding_cyclesLeft (s : State) (x : Binding) : (s.setBinding x).cyclesLeft = s.cyclesLeft := rfl
@[simp] theorem State.setBinding_out (s : State) (x : Binding) : (s.setBinding x).out = s.out := rfl
@[simp] theorem State.setBinding_input (s : State) (x : Binding) : (s.setBinding x).input = s.input := rfl

@[simp] theorem State.setCyclesLeft_plat (s : State) (x : Int) : (s.setCyclesLeft x).plat = s.plat := rfl
@[simp] theorem State.setCyclesLeft_cfg (s : State) (x : Int) : (s.setCyclesLeft x).cfg = s.cfg := rfl
@[simp] theorem State.setCyclesLeft_vram (s : State) (x : Int) : (s.setCyclesLeft x).vram = s.vram := rfl
@[simp] theorem State.setCyclesLeft_latch (s : State) (x : Int) : (s.setCyclesLeft x).latch = s.latch := rfl
@[simp] theorem State.setCyclesLeft_tile (s : State) (x : Int) : (s.setCyclesLeft x).tile = s.tile := rfl
@[simp] theorem State.setCyclesLeft_egcSrc (s : State) (x : Int) : (s.setCyclesLeft x).egcSrc = s.egcSrc := rfl
@[simp] theorem State.setCyclesLeft_egcLast (s : State) (x : Int) : (s.setCyclesLeft x).egcLast = s.egcLast := rfl
@[simp] theorem State.setCyclesLeft_srcMask (s : State) (x : Int) : (s.setCyclesLeft x).srcMask = s.srcMask := rfl
@[simp] theorem State.setCyclesLeft_sh (s : State) (x : Int) : (s.setCyclesLeft x).sh = s.sh := rfl
@[simp] theorem State.setCyclesLeft_buf (s : State) (x : Int) : (s.setCyclesLeft x).buf = s.buf := rfl
@[simp] theorem State.setCyclesLeft_logged (s : State) (x : Int) : (s.setCyclesLeft x).logged = s.logged := rfl
@[simp] theorem State.setCyclesLeft_binding (s : State) (x : Int) : (s.setCyclesLeft x).binding = s.binding := rfl
@[simp] theorem State.setCyclesLeft_cyclesLeft (s : State) (x : Int) : (s.setCyclesLeft x).cyclesLeft = x := rfl
@[simp] theorem State.setCyclesLeft_out (s : State) (x : Int) : (s.setCyclesLeft x).out = s.out := rfl
@[simp] theorem State.setCyclesLeft_input (s : State) (x : Int) : (s.setCyclesLeft x).input = s.input := rfl

@[simp] theorem State.setOut_plat (s : State) (x : Out) : (s.setOut x).plat = s.plat := rfl
@[simp] theorem State.setOut_cfg (s : State) (x : Out) : (s.setOut x).cfg = s.cfg := rfl
@[simp] theorem State.setOut_vram (s : State) (x : Out) : (s.setOut x).vram = s.vram := rfl
@[simp] theorem State.setOut_latch (s : State) (x : Out) : (s.setOut x).latch = s.latch := rfl
@[simp] theorem State.setOut_tile (s : State) (x : Out) : (s.setOut x).tile = s.tile := rfl
@[simp] theorem State.setOut_egcSrc (s : State) (x : Out) : (s.setOut x).egcSrc = s.egcSrc := rfl
@[simp] theorem State.setOut_egcLast (s : State) (x : Out) : (s.setOut x).egcLast = s.egcLast := rfl
@[simp] theorem State.setOut_srcMask (s : State) (x : Out) : (s.setOut x).srcMask = s.srcMask := rfl
@[simp] theorem State.setOut_sh (s : State) (x : Out) : (s.setOut x).sh = s.sh := rfl
@[simp] theorem State.setOut_buf (s : State) (x : Out) : (s.setOut x).buf = s.buf := rfl
@[simp] theorem State.setOut_logged (s : State) (x : Out) : (s.setOut x).logged = s.logged := rfl
@[simp] theorem State.setOut_binding (s : State) (x : Out) : (s.setOut x).binding = s.binding := rfl
@[simp] theorem State.setOut_cyclesLeft (s : State) (x : Out) : (s.setOut x).cyclesLeft = s.cyclesLeft := rfl
@[simp] theorem State.setOut_out (s : State) (x : Out) : (s.setOut x).out = x := rfl
@[simp] theorem State.setOut_input (s : State) (x : Out) : (s.setOut x).input = s.input := rfl

@[simp] theorem State.setInput_plat (s : State) (x : List QueueEntry) : (s.setInput x).plat = s.plat := rfl
@[simp] theorem State.setInput_cfg (s : State) (x : List QueueEntry) : (s.setInput x).cfg = s.cfg := rfl
@[simp] theorem State.setInput_vram (s : State) (x : List QueueEntry) : (s.setInput x).vram = s.vram := rfl
@[simp] theorem State.setInput_latch (s : State) (x : List QueueEntry) : (s.setInput x).latch = s.latch := rfl
@[simp] theorem State.setInput_tile (s : State) (x : List QueueEntry) : (s.setInput x).tile = s.tile := rfl
@[simp] theorem State.setInput_egcSrc (s : State) (x : List QueueEntry) : (s.setInput x).egcSrc = s.egcSrc := rfl
@[simp] theorem State.setInput_egcLast (s : State) (x : List QueueEntry) : (s.setInput x).egcLast = s.egcLast := rfl
@[simp] theorem State.setInput_srcMask (s : State) (x : List QueueEntry) : (s.setInput x).srcMask = s.srcMask := rfl
@[simp] theorem State.setInput_sh (s : State) (x : List QueueEntry) : (s.setInput x).sh = s.sh := rfl
@[simp] theorem State.setInput_buf (s : State) (x : List QueueEntry) : (s.setInput x).buf = s.buf := rfl
@[simp] theorem State.setInput_logged (s : State) (x : List QueueEntry) : (s.setInput x).logged = s.logged := rfl
@[simp] theorem State.setInput_binding (s : State) (x : List QueueEntry) : (s.setInput x).binding = s.binding := rfl
@[simp] theorem State.setInput_cyclesLeft (s : State) (x : List QueueEntry) : (s.setInput x).cyclesLeft = s.cyclesLeft := rfl
@[simp] theorem State.setInput_out (s : State) (x : List QueueEntry) : (s.setInput x).out = s.out := rfl
@[simp] theorem State.setInput_input (s : State) (x : List QueueEntry) : (s.setInput x).input = x := rfl

end Sys2Proof.Machine
end

