-- ==== Sys2Proof/Laws/Ops.lean ====
section
/-! SUPPORT. What each shared operation of Machine/Ops.lean and Machine/Flags.lean can do, said once: which field it
changes, what VRAM reads as after it, how outcomes chain; and the algebra of frames. -/

namespace Sys2Proof.Machine

/-! ### Frames -/

theorem State.keepsBut_refl (s : State) (l : List Reg) : s.keepsBut l s := fun r _ => by cases r <;> rfl

theorem State.keepsBut.trans {s t u : State} {l : List Reg} (h : s.keepsBut l t) (h' : t.keepsBut l u) :
    s.keepsBut l u := fun r hr => by
  have h1 := h r hr
  have h2 := h' r hr
  cases r <;> exact Eq.trans h2 h1

theorem State.keepsBut.mono {s t : State} {l l' : List Reg} (h : s.keepsBut l t) (hl : ∀ r ∈ l, r ∈ l') :
    s.keepsBut l' t := fun r hr => h r fun hm => hr (hl r hm)

theorem State.keepsBut_setCfg (s : State) (x : ExtConfig) : s.keepsBut [.cfg] (s.setCfg x) := fun r hr => by
  cases r <;> first | rfl | simp at hr

theorem State.keepsBut_setVram (s : State) (x : Memory) : s.keepsBut [.vram] (s.setVram x) := fun r hr => by
  cases r <;> first | rfl | simp at hr

theorem State.keepsBut_setLatch (s : State) (x : Word) : s.keepsBut [.latch] (s.setLatch x) := fun r hr => by
  cases r <;> first | rfl | simp at hr

theorem State.keepsBut_setTile (s : State) (x : Quad) : s.keepsBut [.tile] (s.setTile x) := fun r hr => by
  cases r <;> first | rfl | simp at hr

theorem State.keepsBut_setEgcSrc (s : State) (x : Quad) : s.keepsBut [.egcSrc] (s.setEgcSrc x) := fun r hr => by
  cases r <;> first | rfl | simp at hr

theorem State.keepsBut_setEgcLast (s : State) (x : Quad) : s.keepsBut [.egcLast] (s.setEgcLast x) := fun r hr => by
  cases r <;> first | rfl | simp at hr

theorem State.keepsBut_setSrcMask (s : State) (x : Half) : s.keepsBut [.srcMask] (s.setSrcMask x) := fun r hr => by
  cases r <;> first | rfl | simp at hr

theorem State.keepsBut_setSh (s : State) (x : Shifter) : s.keepsBut [.sh] (s.setSh x) := fun r hr => by
  cases r <;> first | rfl | simp at hr

theorem State.keepsBut_setBuf (s : State) (x : Memory) : s.keepsBut [.buf] (s.setBuf x) := fun r hr => by
  cases r <;> first | rfl | simp at hr

theorem State.keepsBut_setLogged (s : State) (x : List LogMark) : s.keepsBut [.logged] (s.setLogged x) := fun r hr => by
  cases r <;> first | rfl | simp at hr

theorem State.keepsBut_setBinding (s : State) (x : Binding) : s.keepsBut [.binding] (s.setBinding x) := fun r hr => by
  cases r <;> first | rfl | simp at hr

theorem State.keepsBut_setCyclesLeft (s : State) (x : Int) : s.keepsBut [.cyclesLeft] (s.setCyclesLeft x) :=
  fun r hr => by cases r <;> first | rfl | simp at hr

theorem State.keepsBut_setOut (s : State) (x : Out) : s.keepsBut [.out] (s.setOut x) := fun r hr => by
  cases r <;> first | rfl | simp at hr

/-! ### VRAM -/

theorem Platform.vmemSize_pos (p : Platform) : 0 < p.vmemSize := Nat.two_pow_pos _

/-- A planar word is four bytes, so `VMEMSIZE` is a multiple of four from two bits on. -/
theorem Platform.vmemSize_eq {p : Platform} (h : 2 ≤ p.vmemBits) : 4 * (p.vmemSize / 4) = p.vmemSize := by
  apply Nat.mul_div_cancel'
  exact Nat.pow_dvd_pow 2 h

theorem State.wrap_lt (s : State) (o : Nat) : s.wrap o < s.plat.vmemSize := Nat.mod_lt _ s.plat.vmemSize_pos

theorem State.wrap_of_lt {s : State} {o : Nat} (h : o < s.plat.vmemSize) : s.wrap o = o := Nat.mod_eq_of_lt h

/-- A planar word lies inside VRAM, none of its four bytes wraps. -/
theorem State.planarOff_lt (s : State) (h : 2 ≤ s.plat.vmemBits) (i : Nat) : s.planarOff i + 3 < s.plat.vmemSize := by
  have h4 := Platform.vmemSize_eq h
  have := s.plat.vmemSize_pos
  have : i % (s.plat.vmemSize / 4) < s.plat.vmemSize / 4 := Nat.mod_lt _ (by omega)
  simp only [State.planarOff, State.wrap4]
  omega

theorem State.vbyte_eq (s : State) (o : Nat) : s.vbyte o = s.vramAt (s.wrap o) := rfl

theorem State.putByte_setVram (s : State) (o : Nat) (v : Byte) : s.putByte o v = s.setVram (s.putByte o v).vram := rfl

theorem State.putHalf_setVram (s : State) (o : Nat) (v : Half) : s.putHalf o v = s.setVram (s.putHalf o v).vram := rfl

theorem State.putWord_setVram (s : State) (o : Nat) (v : Word) : s.putWord o v = s.setVram (s.putWord o v).vram := rfl

theorem State.vwrite_setVram (s : State) (o : Nat) (w : Width) (v : Word) :
    s.vwrite o w v = s.setVram (s.vwrite o w v).vram := by cases w <;> rfl

theorem State.pwrite_setVram (s : State) (o : Nat) (n : PortWidth) (v : Half) :
    s.pwrite o n v = s.setVram (s.pwrite o n v).vram := by cases n <;> rfl

theorem State.planarStore_setVram (s : State) (i : Nat) (w : Word) :
    s.planarStore i w = s.setVram (s.planarStore i w).vram := rfl

@[simp] theorem State.putByte_plat (s : State) (o : Nat) (v : Byte) : (s.putByte o v).plat = s.plat := rfl

@[simp] theorem State.putByte_wrap (s : State) (o x : Nat) (v : Byte) : (s.putByte o v).wrap x = s.wrap x := rfl

/-- Storing a byte changes that byte of VRAM and no other. -/
theorem State.putByte_vramAt {s : State} (h : s.vram.wf = true) (o x : Nat) (v : Byte) :
    (s.putByte o v).vramAt x = if x = s.wrap o then v else s.vramAt x := Memory.read_write h _ _ _

theorem State.putByte_wf {s : State} (h : s.vram.wf = true) (o : Nat) (v : Byte) : (s.putByte o v).vram.wf = true :=
  Memory.write_wf h _ _

theorem State.putByte_below {s : State} (h : s.vram.below s.plat.vmemSize = true) (o : Nat) (v : Byte) :
    (s.putByte o v).vram.below s.plat.vmemSize = true := Memory.write_below h (s.wrap_lt o) v

/-- A VRAM in canonical form inside VMEMSIZE stays so under every VRAM write. -/
def State.vramGood (s : State) : Prop := s.vram.wf = true ∧ s.vram.below s.plat.vmemSize = true

theorem State.vramGood.putByte {s : State} (h : s.vramGood) (o : Nat) (v : Byte) : (s.putByte o v).vramGood :=
  ⟨State.putByte_wf h.1 o v, State.putByte_below h.2 o v⟩

theorem State.vramGood.putHalf {s : State} (h : s.vramGood) (o : Nat) (v : Half) : (s.putHalf o v).vramGood :=
  (h.putByte _ _).putByte _ _

theorem State.vramGood.putWord {s : State} (h : s.vramGood) (o : Nat) (v : Word) : (s.putWord o v).vramGood :=
  (((h.putByte _ _).putByte _ _).putByte _ _).putByte _ _

theorem State.vramGood.vwrite {s : State} (h : s.vramGood) (o : Nat) (w : Width) (v : Word) :
    (s.vwrite o w v).vramGood := by
  cases w
  · exact h.putByte _ _
  · exact h.putHalf _ _
  · exact h.putWord _ _

theorem State.vramGood.pwrite {s : State} (h : s.vramGood) (o : Nat) (n : PortWidth) (v : Half) :
    (s.pwrite o n v).vramGood := by
  cases n
  · exact h.putByte _ _
  · exact h.putHalf _ _

theorem State.vramGood.planarStore {s : State} (h : s.vramGood) (i : Nat) (w : Word) : (s.planarStore i w).vramGood :=
  h.putWord _ _

/-- Storing a half changes its two bytes, the later one last. -/
theorem State.putHalf_vramAt {s : State} (h : s.vram.wf = true) (o x : Nat) (v : Half) :
    (s.putHalf o v).vramAt x =
      if x = s.wrap (o + 1) then v.extractLsb' 8 8 else if x = s.wrap o then v.extractLsb' 0 8 else s.vramAt x := by
  simp [State.putHalf, State.putByte_vramAt (State.putByte_wf h _ _), State.putByte_vramAt h]

/-- Storing a word changes its four bytes, the later ones last. -/
theorem State.putWord_vramAt {s : State} (h : s.vram.wf = true) (o x : Nat) (v : Word) :
    (s.putWord o v).vramAt x =
      if x = s.wrap (o + 3) then byteOf v 3 else if x = s.wrap (o + 2) then byteOf v 2
      else if x = s.wrap (o + 1) then byteOf v 1 else if x = s.wrap o then byteOf v 0 else s.vramAt x := by
  have h1 := State.putByte_wf h o (byteOf v 0)
  have h2 := State.putByte_wf h1 (o + 1) (byteOf v 1)
  have h3 := State.putByte_wf h2 (o + 2) (byteOf v 2)
  simp [State.putWord, State.putByte_vramAt h3, State.putByte_vramAt h2, State.putByte_vramAt h1,
    State.putByte_vramAt h]

/-- Storing a planar word changes the four lanes of that planar index and nothing else. -/
theorem State.planarStore_vramAt {s : State} (h : s.vram.wf = true) (hb : 2 ≤ s.plat.vmemBits) (i x : Nat) (w : Word) :
    (s.planarStore i w).vramAt x =
      if x = s.planarOff i + 3 then byteOf w 3 else if x = s.planarOff i + 2 then byteOf w 2
      else if x = s.planarOff i + 1 then byteOf w 1 else if x = s.planarOff i then byteOf w 0 else s.vramAt x := by
  have hl := s.planarOff_lt hb i
  rw [State.planarStore, State.putWord_vramAt h, State.wrap_of_lt hl, State.wrap_of_lt (by omega),
    State.wrap_of_lt (by omega), State.wrap_of_lt (by omega)]

/-- Writing a decoder value changes the bytes of the access and nothing else. -/
theorem State.pwrite_outside {s : State} (h : s.vram.wf = true) {o x : Nat} {n : PortWidth}
    (hx : s.outside o (portBytes n) x) (v : Half) : (s.pwrite o n v).vramAt x = s.vramAt x := by
  cases n
  · have h0 : x ≠ s.wrap o := hx 0 (by simp [portBytes])
    simp [State.pwrite, State.putByte_vramAt h, h0]
  · have h0 : x ≠ s.wrap o := hx 0 (by simp [portBytes])
    have h1 : x ≠ s.wrap (o + 1) := hx 1 (by simp [portBytes])
    simp [State.pwrite, State.putHalf_vramAt h, h0, h1]

/-! ### Latch, debits, diagnostics -/

@[simp] theorem State.latchLoad_latch (s : State) (i : Nat) : (s.latchLoad i).latch = s.planarRead i := rfl

theorem State.latchLoad_keeps (s : State) (i : Nat) : s.keepsBut [.latch] (s.latchLoad i) := s.keepsBut_setLatch _

@[simp] theorem State.debitRead_cyclesLeft (s : State) : s.debitRead.cyclesLeft = s.cyclesLeft - s.plat.readDelay := rfl

@[simp] theorem State.debitWrite_cyclesLeft (s : State) : s.debitWrite.cyclesLeft = s.cyclesLeft - s.plat.writeDelay :=
  rfl

theorem State.debitRead_keeps (s : State) : s.keepsBut [.cyclesLeft] s.debitRead := s.keepsBut_setCyclesLeft _

theorem State.debitWrite_keeps (s : State) : s.keepsBut [.cyclesLeft] s.debitWrite := s.keepsBut_setCyclesLeft _

/-- A diagnostic is added once, or the state stays. -/
theorem State.logOnce_cases (s : State) (k : LogKind) (v : Byte) :
    ((⟨k, v⟩ : LogMark) ∈ s.logged ∧ s.logOnce k v = s) ∨
    ((⟨k, v⟩ : LogMark) ∉ s.logged ∧ s.logOnce k v = s.setLogged (s.logged ++ [⟨k, v⟩])) := by
  unfold State.logOnce
  by_cases h : (⟨k, v⟩ : LogMark) ∈ s.logged
  · exact .inl ⟨h, by simp [h]⟩
  · exact .inr ⟨h, by simp [h]⟩

theorem State.logOnce_setLogged (s : State) (k : LogKind) (v : Byte) :
    s.logOnce k v = s.setLogged (s.logOnce k v).logged := by
  rcases s.logOnce_cases k v with ⟨_, h⟩ | ⟨_, h⟩ <;> rw [h] <;> rfl

theorem State.logOnce_nodup {s : State} (h : s.logged.Nodup) (k : LogKind) (v : Byte) :
    (s.logOnce k v).logged.Nodup := by
  rcases s.logOnce_cases k v with ⟨_, e⟩ | ⟨hn, e⟩
  · rw [e]; exact h
  · rw [e, State.setLogged_logged, List.nodup_append]
    exact ⟨h, by simp, by
      intro a ha b hb hab
      simp only [List.mem_singleton] at hb
      subst hb; subst hab; exact hn ha⟩

/-! ### Wide accesses -/

/-- What every byte read keeps, a decomposed read keeps. -/
theorem readBytes_preserves (P : State → Prop) (f : Word → State → Byte × State)
    (hf : ∀ a s, P s → P (f a s).2) : ∀ (n : Nat) (a : Word) (s : State), P s → P (readBytes f n a s).2
  | 0, _, _, h => h
  | n + 1, a, s, h => readBytes_preserves P f hf n (a + 1) (f a s).2 (hf a s h)

/-- What every byte write keeps, a decomposed write keeps. -/
theorem writeBytes_preserves (P : State → Prop) (f : Word → Byte → State → State)
    (hf : ∀ a b s, P s → P (f a b s)) : ∀ (n : Nat) (a d : Word) (s : State), P s → P (writeBytes f n a d s)
  | 0, _, _, _, h => h
  | n + 1, a, d, s, h => writeBytes_preserves P f hf n (a + 1) (d >>> 8) (f a (d.setWidth 8) s) (hf a _ s h)

/-- A byte-linear write is VRAM writes: what those keep, it keeps. -/
theorem linearWrite_preserves (P : State → Prop) (hw : ∀ s o w v, P s → P (s.vwrite o w v))
    (flat : Word → Nat) (place : Nat → Nat) (w : Width) (addr data : Word) (s : State) (h : P s) :
    P (linearWrite flat place w addr data s) := by
  unfold linearWrite
  split
  · exact hw _ _ _ _ h
  · refine writeBytes_preserves P _ (fun a b t ht => ?_) _ _ _ _ h
    have := hw t (place (flat a)) .byte (b.setWidth 32) ht
    simpa [State.vwrite] using this

/-- A byte-linear write changes VRAM only. -/
theorem linearWrite_keeps (flat : Word → Nat) (place : Nat → Nat) (w : Width) (addr data : Word) (s : State) :
    s.keepsBut [.vram] (linearWrite flat place w addr data s) :=
  linearWrite_preserves (fun t => s.keepsBut [.vram] t)
    (fun t o w v ht => ht.trans (by rw [State.vwrite_setVram]; exact t.keepsBut_setVram _)) flat place w addr data s
    (s.keepsBut_refl _)

/-- A byte access through a byte-linear handler is one VRAM byte. -/
theorem linearRead_byte (flat : Word → Nat) (place : Nat → Nat) (addr : Word) (s : State) :
    linearRead flat place .byte addr s = (s.vbyte (place (flat addr))).setWidth 32 := by
  simp [linearRead, widthBytes, Nat.mod_one, State.vread]

theorem linearWrite_byte (flat : Word → Nat) (place : Nat → Nat) (addr data : Word) (s : State) :
    linearWrite flat place .byte addr data s = s.putByte (place (flat addr)) (data.setWidth 8) := by
  simp [linearWrite, widthBytes, Nat.mod_one, State.vwrite]

/-! ### Outcomes -/

theorem andThen_next_iff {α β : Type} {r : Host.Outcome α Fault Refusal} {k : α → Host.Outcome β Fault Refusal} {y : β} :
    andThen r k = .next y ↔ ∃ x, r = .next x ∧ k x = .next y := by
  cases r <;> simp [andThen]

@[simp] theorem andThen_next {α β : Type} (x : α) (k : α → Host.Outcome β Fault Refusal) :
    andThen (.next x) k = k x := rfl

theorem finishRead_next_iff {w : Width} {r : ReadResult} {t : State} :
    finishRead w r = .next t ↔ ∃ v u, r = .next (v, u) ∧ t = u.setOut (Out.ofWidth w v) := by
  rcases r with ⟨v, u⟩ | e | e
  · simp [finishRead, andThen, eq_comm, and_assoc]
  · simp [finishRead, andThen]
  · simp [finishRead, andThen]

theorem finishWrite_next_iff {r : Result} {t : State} :
    finishWrite r = .next t ↔ ∃ u, r = .next u ∧ t = u.setOut .none := by
  cases r <;> simp [finishWrite, andThen, eq_comm]

theorem misaligned_iff (n : PortWidth) (x : Nat) : misaligned n x = true ↔ n = .word ∧ x % 2 = 1 := by
  simp [misaligned]

theorem not_misaligned_of_alignedAt {n : PortWidth} {x : Nat} (h : alignedAt n x) : misaligned n x = false := by
  rcases h with rfl | h
  · rfl
  · simp [misaligned, h]

/-- An aligned access goes on. -/
theorem aligned_of {α : Type} {n : PortWidth} {x : Nat} (h : alignedAt n x) (r : Host.Outcome α Fault Refusal) :
    aligned n x r = r := by
  simp [aligned, not_misaligned_of_alignedAt h]

/-- A next state comes from an access that was aligned. -/
theorem aligned_next_iff {α : Type} {n : PortWidth} {x : Nat} {r : Host.Outcome α Fault Refusal} {y : α} :
    aligned n x r = .next y ↔ alignedAt n x ∧ r = .next y := by
  unfold aligned
  by_cases h : misaligned n x = true
  · have h' := (misaligned_iff n x).1 h
    obtain ⟨rfl, hx⟩ := h'
    simp [misaligned, alignedAt, hx]
  · simp only [h, if_false, Bool.false_eq_true]
    refine ⟨fun e => ⟨?_, e⟩, fun e => e.2⟩
    rw [misaligned_iff] at h
    cases n
    · exact .inl rfl
    · exact .inr (by simp at h; omega)

end Sys2Proof.Machine
end

