-- ==== Sys2Proof/Laws/Planar.lean ====
section
/-! SUPPORT. What the shared operations of the raster engine, the planar handlers and the dispatcher can do, said once. -/

namespace Sys2Proof.Machine

/-! ### The raster engine -/

/-- `ModeOperation` changes nothing but, under an unsupported mode, `Logged`. -/
theorem State.modeOperation_keeps (s : State) (v : Byte) : s.keepsBut [.logged] (s.modeOperation v).2 := by
  unfold State.modeOperation
  split <;> first | exact s.keepsBut_refl _ | skip
  simp only [State.writeModeUnsup]
  rw [State.logOnce_setLogged]
  exact s.keepsBut_setLogged _

theorem State.modeOperation_setLogged (s : State) (v : Byte) :
    (s.modeOperation v).2 = s.setLogged (s.modeOperation v).2.logged := by
  unfold State.modeOperation
  split <;> first | rfl | exact State.logOnce_setLogged _ _ _

theorem State.modeOperation_nodup {s : State} (h : s.logged.Nodup) (v : Byte) :
    (s.modeOperation v).2.logged.Nodup := by
  unfold State.modeOperation
  split <;> first | exact h | exact State.logOnce_nodup h _ _

/-! ### Planar reads and writes -/

/-- A planar read changes the Latch only, to the planar word at the index it uses. -/
theorem State.planarReadByte_state (s : State) (idx : Nat) (raw : Bool) (p : Plane) :
    (s.planarReadByte idx raw p).2 = s.latchLoad (s.readIndex idx) := by
  unfold State.planarReadByte
  split <;> rfl

theorem State.planarReadByte_keeps (s : State) (idx : Nat) (raw : Bool) (p : Plane) :
    s.keepsBut [.latch] (s.planarReadByte idx raw p).2 := by
  rw [State.planarReadByte_state]
  exact s.latchLoad_keeps _

/-- A planar write is one planar store after the engine's diagnostic: VRAM and `Logged`. -/
theorem State.planarWriteByte_keeps (s : State) (idx : Nat) (v : Byte) (lanes : Word) :
    s.keepsBut [.vram, .logged] (s.planarWriteByte idx v lanes) := by
  have h1 := (s.modeOperation_keeps v).mono (l' := [.vram, .logged]) (by simp)
  refine h1.trans ?_
  simp only [State.planarWriteByte]
  rw [State.planarStore_setVram]
  exact ((s.modeOperation v).2.keepsBut_setVram _).mono (by simp)

theorem State.planarWriteByte_logged (s : State) (idx : Nat) (v : Byte) (lanes : Word) :
    (s.planarWriteByte idx v lanes).logged = (s.modeOperation v).2.logged := rfl

theorem State.vramGood.planarWriteByte {s : State} (h : s.vramGood) (idx : Nat) (v : Byte) (lanes : Word) :
    (s.planarWriteByte idx v lanes).vramGood := by
  have : (s.modeOperation v).2.vramGood := by
    rw [State.modeOperation_setLogged]; exact h
  exact this.planarStore _ _

/-! ### The handlers -/

theorem unchainedRead_keeps (w : Width) (addr : Word) (s : State) :
    s.keepsBut [.latch, .cyclesLeft] (unchainedRead w addr s).2 :=
  readBytes_preserves (fun t => s.keepsBut [.latch, .cyclesLeft] t) _
    (fun _ t ht => ht.trans ((t.planarReadByte_keeps _ _ _).mono (by simp))) _ _ _ (s.debitRead_keeps.mono (by simp))

theorem chainedVgaSlowRead_keeps (w : Width) (addr : Word) (s : State) :
    s.keepsBut [.latch, .cyclesLeft] (chainedVgaSlowRead w addr s).2 :=
  readBytes_preserves (fun t => s.keepsBut [.latch, .cyclesLeft] t) _
    (fun _ t ht => ht.trans ((t.planarReadByte_keeps _ _ _).mono (by simp))) _ _ _ (s.debitRead_keeps.mono (by simp))

theorem chainedVgaEt4kSlowRead_keeps (w : Width) (addr : Word) (s : State) :
    s.keepsBut [.latch, .cyclesLeft] (chainedVgaEt4kSlowRead w addr s).2 :=
  readBytes_preserves (fun t => s.keepsBut [.latch, .cyclesLeft] t) _
    (fun _ t ht => ht.trans ((t.planarReadByte_keeps _ _ _).mono (by simp))) _ _ _ (s.debitRead_keeps.mono (by simp))

theorem unchainedWrite_keeps (w : Width) (addr data : Word) (s : State) :
    s.keepsBut [.vram, .logged, .cyclesLeft] (unchainedWrite w addr data s) :=
  writeBytes_preserves (fun t => s.keepsBut [.vram, .logged, .cyclesLeft] t) _
    (fun _ _ t ht => ht.trans ((t.planarWriteByte_keeps _ _ _).mono (by simp))) _ _ _ _
    (s.debitWrite_keeps.mono (by simp))

theorem chainedVgaSlowWrite_keeps (w : Width) (addr data : Word) (s : State) :
    s.keepsBut [.vram, .logged, .cyclesLeft] (chainedVgaSlowWrite w addr data s) :=
  writeBytes_preserves (fun t => s.keepsBut [.vram, .logged, .cyclesLeft] t) _
    (fun _ _ t ht => ht.trans ((t.planarWriteByte_keeps _ _ _).mono (by simp))) _ _ _ _
    (s.debitWrite_keeps.mono (by simp))

theorem chainedVgaEt4kSlowWrite_keeps (w : Width) (addr data : Word) (s : State) :
    s.keepsBut [.vram, .logged, .cyclesLeft] (chainedVgaEt4kSlowWrite w addr data s) :=
  writeBytes_preserves (fun t => s.keepsBut [.vram, .logged, .cyclesLeft] t) _
    (fun _ _ t ht => ht.trans ((t.planarWriteByte_keeps _ _ _).mono (by simp))) _ _ _ _
    (s.debitWrite_keeps.mono (by simp))

theorem chainedVgaWrite_keeps (w : Width) (addr data : Word) (s : State) :
    s.keepsBut [.vram, .cyclesLeft] (chainedVgaWrite w addr data s) :=
  (s.debitWrite_keeps.mono (by simp)).trans ((linearWrite_keeps _ _ _ _ _ _).mono (by simp))

theorem chainedVgaEt4kWrite_keeps (w : Width) (addr data : Word) (s : State) :
    s.keepsBut [.vram, .cyclesLeft] (chainedVgaEt4kWrite w addr data s) :=
  (s.debitWrite_keeps.mono (by simp)).trans ((linearWrite_keeps _ _ _ _ _ _).mono (by simp))

theorem chainedEgaWrite_keeps (w : Width) (addr data : Word) (s : State) :
    s.keepsBut [.vram, .cyclesLeft] (chainedEgaWrite w addr data s) :=
  (s.debitWrite_keeps.mono (by simp)).trans ((linearWrite_keeps _ _ _ _ _ _).mono (by simp))

theorem linearTagWrite_keeps (w : Width) (addr data : Word) (s : State) :
    s.keepsBut [.vram, .cyclesLeft] (linearTagWrite w addr data s) :=
  (s.debitWrite_keeps.mono (by simp)).trans ((linearWrite_keeps _ _ _ _ _ _).mono (by simp))

/-! ### The dispatcher -/

theorem State.bindTag_setBinding (s : State) (h : Tag) : s.bindTag h = s.setBinding (s.bindTag h).binding := by
  cases h <;> first | rfl | (simp only [State.bindTag]; split <;> rfl)

theorem State.bindLfb_setBinding (s : State) : s.bindLfb = s.setBinding s.bindLfb.binding := by
  simp only [State.bindLfb]
  split <;> rfl

/-- Dispatch changes the Binding only. -/
theorem State.dispatchWith_keeps (s : State) (h : Tag) : s.keepsBut [.binding] (s.dispatchWith h) := by
  have h1 : s.keepsBut [.binding] s.latchBanks := s.keepsBut_setBinding _
  refine h1.trans ?_
  have h2 : s.latchBanks.keepsBut [.binding] (s.latchBanks.bindTag h) := by
    rw [State.bindTag_setBinding]; exact State.keepsBut_setBinding _ _
  refine h2.trans ?_
  unfold State.dispatchWith
  rw [State.bindLfb_setBinding]
  exact State.keepsBut_setBinding _ _

theorem State.dispatch_keeps (s : State) : s.keepsBut [.binding] s.dispatch := s.dispatchWith_keeps _

theorem State.bindWindow_keeps (s : State) (h : Tag) (k : Fin 4) : s.keepsBut [.binding] (s.bindWindow h k) :=
  s.keepsBut_setBinding _

theorem PageRange.holds_iff (r : PageRange) (page : Nat) :
    r.holds page = true ↔ r.first ≤ page ∧ page < r.first + r.count := by simp [PageRange.holds]

/-- The tag of a page is read from the head of the list. -/
theorem Binding.handler_cons (b : Binding) (r : PageRange) (l : List PageRange) (h : b.bound = r :: l) (page : Nat) :
    b.handler page = if r.holds page then r.tag else ({ b with bound := l } : Binding).handler page := by
  simp only [Binding.handler, h, List.find?_cons]
  cases r.holds page <;> rfl

end Sys2Proof.Machine
end

