-- ==== Sys2Proof/Laws/Dispatcher.lean ====
section
/-! SUPPORT. Which tags Dispatch can bind, and that it leaves parameters such as R8 asks. -/

namespace Sys2Proof.Machine

/-- A page is unmapped or has the tag of some range of the binding. -/
theorem Binding.handler_cases (b : Binding) (page : Nat) :
    b.handler page = .unmapped ∨ ∃ r ∈ b.bound, b.handler page = r.tag := by
  unfold Binding.handler
  cases e : b.bound.find? (fun r => r.holds page) with
  | none => exact .inl rfl
  | some r => exact .inr ⟨r, List.mem_of_find?_eq_some e, rfl⟩

/-- Every range Dispatch leaves holds the selected tag, `LINEAR` (the framebuffer window) or nothing. -/
theorem State.dispatchWith_tags (s : State) (h : Tag) {r : PageRange} (hr : r ∈ (s.dispatchWith h).binding.bound) :
    r.tag = h ∨ r.tag = .linear ∨ r.tag = .unmapped := by
  have hTag : ∀ r ∈ (s.latchBanks.bindTag h).binding.bound, r.tag = h ∨ r.tag = .unmapped := by
    intro r hr
    have window : ∀ h' k, r ∈ (s.latchBanks.bindWindow h' k).binding.bound → r.tag = h' ∨ r.tag = .unmapped := by
      intro h' k hr
      simp only [State.bindWindow, windowRanges, State.setBinding_binding, State.latchBanks, List.filter_nil,
        List.append_nil, List.mem_cons, List.mem_map] at hr
      obtain rfl | ⟨j, -, rfl⟩ := hr
      · exact .inl rfl
      · exact .inr rfl
    have legacy : ∀ h', r ∈ (s.latchBanks.bindLegacy h').binding.bound → r.tag = h' ∨ r.tag = .unmapped := by
      intro h' hr
      simp only [State.bindLegacy, State.setBinding_binding, State.latchBanks, List.append_nil, List.mem_map] at hr
      obtain ⟨x, -, rfl⟩ := hr
      exact .inl rfl
    cases h with
    | pc98 =>
      simp only [State.bindTag, State.bindPc98, State.setBinding_binding, State.latchBanks, List.append_nil,
        List.mem_cons] at hr
      obtain rfl | hr := hr
      · exact .inl rfl
      · by_cases ha : s.cfg.pc98.analog16 = true <;> simp [ha] at hr
        exact .inl (by rw [hr])
    | text =>
      simp only [State.bindTag] at hr
      split at hr
      · exact window _ _ hr
      · exact legacy _ hr
    | cgaSnowText | hercules | tandy | pcjr | amstrad => exact legacy _ hr
    | unmapped | unchained | chainedEga | chainedVga | chainedVgaSlow | chainedVgaEt4k | chainedVgaEt4kSlow | linear =>
      exact window _ _ hr
  simp only [State.dispatchWith, State.bindLfb] at hr
  split at hr
  · exact (hTag r hr).imp_right .inr
  · simp only [State.setBinding_binding, List.mem_cons] at hr
    obtain rfl | hr := hr
    · exact .inr (.inl rfl)
    · exact (hTag r hr).imp_right .inr

/-- After Dispatch an address has the selected tag, `LINEAR` or none. -/
theorem State.dispatchWith_handlerAt (s : State) (h : Tag) (addr : Word) :
    (s.dispatchWith h).handlerAt addr = h ∨ (s.dispatchWith h).handlerAt addr = .linear ∨
      (s.dispatchWith h).handlerAt addr = .unmapped := by
  obtain e | ⟨r, hr, e⟩ := (s.dispatchWith h).binding.handler_cases (pageOf addr)
  · exact .inr (.inr e)
  · rw [State.handlerAt, e]
    exact s.dispatchWith_tags h hr

/-- Over the binding of the selected tag Dispatch lays the framebuffer window: its pages are `LINEAR`, every other page is
as that binding has it (R201). -/
theorem State.dispatchWith_handlerAt_eq (s : State) (h : Tag) (addr : Word) :
    (s.dispatchWith h).handlerAt addr =
      if (s.lfbOf addr).isSome then .linear else (s.latchBanks.bindTag h).handlerAt addr := by
  have hp : (s.latchBanks.bindTag h).plat.lfb = s.plat.lfb := by rw [State.bindTag_setBinding]; rfl
  cases e : s.plat.lfb with
  | none => simp [State.lfbOf, e, State.dispatchWith, State.bindLfb, hp]
  | some l =>
    simp only [State.lfbOf, e, State.dispatchWith, State.bindLfb, hp, State.handlerAt]
    rw [Binding.handler_cons _ _ _ rfl]
    simp only [PageRange.holds_iff, pageOf]
    split <;> simp_all

/-- Where the parameters allow the configuration, Dispatch leaves them such as R8 asks. -/
theorem State.dispatch_paramsGood {s : State} (h : s.plat.allows s.cfg = true) : s.dispatch.ParamsGood := by
  have hp : s.dispatch.plat = s.plat := s.dispatch_keeps .plat (by simp)
  simp only [Platform.allows, Bool.and_eq_true, Bool.or_eq_true, bne_iff_ne, decide_eq_true_eq] at h
  refine ⟨by rw [hp]; exact h.1, fun ⟨addr, ha⟩ => ?_⟩
  rw [hp]
  refine h.2.resolve_left fun hn => ?_
  have := s.dispatchWith_handlerAt (selectHandler s.plat s.cfg) addr
  rw [show s.dispatchWith (selectHandler s.plat s.cfg) = s.dispatch from rfl, ha] at this
  obtain e | e | e := this
  · exact hn e.symm
  · cases e
  · cases e

end Sys2Proof.Machine
end

