-- ==== Sys2Proof/Laws/Shifter.lean ====
section
/-! SUPPORT. What the Shifter's operations can do, said once: the fields they change and the bounds they keep. -/

namespace Sys2Proof.Machine

/-! ### Bounds -/

theorem advance_lt (dec : Bool) (n c : Nat) : advance dec n c < 512 := Nat.mod_lt _ (by decide)

/-- `reinit` leaves every register inside its bounds, whatever the configuration. -/
theorem Shifter.fresh_good (c : EgcConfig) : (Shifter.fresh c).Good := by
  have h1 : c.shiftLength.toNat < 4096 := c.shiftLength.isLt
  have h2 : c.shiftSrcbit.toNat < 16 := c.shiftSrcbit.isLt
  have h3 : c.shiftDstbit.toNat < 16 := c.shiftDstbit.isLt
  have h4 : c.shiftSrcbit.toNat % 8 < 8 := Nat.mod_lt _ (by decide)
  have h5 : c.shiftDstbit.toNat % 8 < 8 := Nat.mod_lt _ (by decide)
  constructor <;> simp only [Shifter.fresh, shiftAmounts] <;> (try split_ifs) <;> (try dsimp only) <;> omega

/-! ### Field by field -/

theorem State.reinit_keeps (s : State) : s.keepsBut [.sh] s.reinit := s.keepsBut_setSh _

theorem State.bufPut_keeps (s : State) (i : Nat) (v : Byte) : s.keepsBut [.buf] (s.bufPut i v) := s.keepsBut_setBuf _

theorem State.setMaskLane_keeps (s : State) (ln : Bool) (m : Byte) : s.keepsBut [.srcMask] (s.setMaskLane ln m) :=
  s.keepsBut_setSrcMask _

theorem State.setSrcLane_keeps (s : State) (ln : Bool) (f : Plane → Byte) : s.keepsBut [.egcSrc] (s.setSrcLane ln f) :=
  s.keepsBut_setEgcSrc _

/-- What a buffer write keeps, the staging of four planes keeps. -/
theorem State.stage8_preserves (P : State → Prop) (hp : ∀ s i v, P s → P (s.bufPut i v)) (s : State) (q : Quad)
    (h : P s) : P (s.stage8 q) := by
  simp only [State.stage8, planes, List.foldl]
  exact hp _ _ _ (hp _ _ _ (hp _ _ _ (hp _ _ _ h)))

theorem State.stage16_preserves (P : State → Prop) (hp : ∀ s i v, P s → P (s.bufPut i v)) (s : State) (q : Quad)
    (h : P s) : P (s.stage16 q) := by
  simp only [State.stage16, planes, List.foldl]
  exact hp _ _ _ (hp _ _ _ (hp _ _ _ (hp _ _ _ (hp _ _ _ (hp _ _ _ (hp _ _ _ (hp _ _ _ h)))))))

theorem State.stage8_keeps (s : State) (q : Quad) : s.keepsBut [.buf] (s.stage8 q) :=
  State.stage8_preserves (fun t => s.keepsBut [.buf] t) (fun t i v ht => ht.trans (t.bufPut_keeps i v)) s q
    (s.keepsBut_refl _)

theorem State.stage16_keeps (s : State) (q : Quad) : s.keepsBut [.buf] (s.stage16 q) :=
  State.stage16_preserves (fun t => s.keepsBut [.buf] t) (fun t i v ht => ht.trans (t.bufPut_keeps i v)) s q
    (s.keepsBut_refl _)

theorem State.biAdv_keeps (s : State) (n : Nat) : s.keepsBut [.sh] (s.biAdv n) := s.keepsBut_setSh _

theorem State.boAdv_keeps (s : State) (n : Nat) : s.keepsBut [.sh] (s.boAdv n) := s.keepsBut_setSh _

theorem State.shiftIn8_keeps (s : State) (q : Quad) (odd : Bool) :
    s.keepsBut [.buf, .sh, .srcMask] (s.shiftIn8 q odd) := by
  unfold State.shiftIn8
  refine ((s.stage8_keeps q).mono (by simp)).trans
    (State.keepsBut.trans ?_ ((State.setMaskLane_keeps _ _ _).mono (by simp)))
  generalize s.stage8 q = t
  dsimp only
  refine State.keepsBut.mono (l := [.sh]) ?_ (by simp)
  split
  · split <;> exact (t.biAdv_keeps 1).trans (State.keepsBut_setSh _ _)
  · exact t.keepsBut_refl _

theorem State.shiftIn16_keeps (s : State) (q : Quad) : s.keepsBut [.buf, .sh, .srcMask] (s.shiftIn16 q) := by
  unfold State.shiftIn16
  refine ((s.stage16_keeps q).mono (by simp)).trans
    (State.keepsBut.trans ?_ ((State.keepsBut_setSrcMask _ _).mono (by simp)))
  generalize s.stage16 q = t
  dsimp only
  refine State.keepsBut.mono (l := [.sh]) ?_ (by simp)
  split
  · refine ((t.biAdv_keeps 2).trans ?_).trans (State.keepsBut_setSh _ _)
    split
    · exact State.boAdv_keeps _ _
    · exact State.keepsBut_refl _ _
  · exact t.keepsBut_refl _

theorem State.twoByte_keeps (s : State) (ln : Bool) : s.keepsBut [.egcSrc, .sh] (s.twoByte ln) := by
  unfold State.twoByte
  split
  · exact ((s.boAdv_keeps 1).mono (by simp)).trans ((State.setSrcLane_keeps _ _ _).mono (by simp))
  · exact ((s.setSrcLane_keeps _ _).mono (by simp)).trans ((State.boAdv_keeps _ 1).mono (by simp))

theorem State.outData_keeps (s : State) (ln : Bool) : s.keepsBut [.egcSrc, .sh] (s.outData ln) := by
  unfold State.outData
  split
  · split
    · exact ((s.setSrcLane_keeps _ _).mono (by simp)).trans ((State.keepsBut_setSh _ _).mono (by simp))
    · exact s.twoByte_keeps ln
  · split
    · exact State.keepsBut.trans (State.keepsBut.mono (l := [.sh]) (s.keepsBut_setSh _) (by simp))
        (State.twoByte_keeps _ ln)
    · exact State.keepsBut.trans
        (State.keepsBut.trans (State.keepsBut.mono (l := [.sh]) (s.keepsBut_setSh _) (by simp))
          ((State.setSrcLane_keeps _ _ _).mono (by simp)))
        ((State.boAdv_keeps _ 1).mono (by simp))

theorem State.outLane_keeps (s : State) (ln : Bool) : s.keepsBut [.egcSrc, .sh, .srcMask] (s.outLane ln) := by
  unfold State.outLane
  split
  · exact ((s.keepsBut_setSh _).mono (by simp)).trans ((State.setMaskLane_keeps _ _ _).mono (by simp))
  · exact (((s.setMaskLane_keeps _ _).mono (by simp)).trans ((State.keepsBut_setSh _ _).mono (by simp))).trans
      ((State.outData_keeps _ ln).mono (by simp))

theorem State.shiftOut8_keeps (s : State) (ln rec : Bool) :
    s.keepsBut [.egcSrc, .sh, .srcMask] (s.shiftOut8 ln rec) := by
  unfold State.shiftOut8
  simp only
  split_ifs
  · exact s.outLane_keeps ln
  · exact (s.setMaskLane_keeps _ _).mono (by simp)
  · exact (((s.keepsBut_setSh _).mono (by simp)).trans (State.outLane_keeps _ ln)).trans
      ((State.reinit_keeps _).mono (by simp))
  · exact ((s.keepsBut_setSh _).mono (by simp)).trans (State.outLane_keeps _ ln)

theorem State.shiftOut16_keeps (s : State) : s.keepsBut [.egcSrc, .sh, .srcMask] s.shiftOut16 := by
  unfold State.shiftOut16
  simp only
  split_ifs
  · exact (s.keepsBut_setSrcMask _).mono (by simp)
  all_goals
    first
    | exact ((((s.keepsBut_setSh _).mono (by simp)).trans (State.shiftOut8_keeps _ _ _)).trans
        (State.shiftOut8_keeps _ _ _)).trans ((State.reinit_keeps _).mono (by simp))
    | exact (((s.keepsBut_setSh _).mono (by simp)).trans (State.shiftOut8_keeps _ _ _)).trans
        (State.shiftOut8_keeps _ _ _)

/-- One input and one output change the Shifter's data path only. -/
theorem State.shiftThrough_keeps (s : State) (n : PortWidth) (ln : Bool) (q : Quad) :
    s.keepsBut shiftRegs (s.shiftThrough n ln q) := by
  cases n
  · exact ((s.shiftIn8_keeps _ _).mono (by simp [shiftRegs])).trans
      ((State.shiftOut8_keeps _ _ _).mono (by simp [shiftRegs]))
  · exact ((s.shiftIn16_keeps _).mono (by simp [shiftRegs])).trans
      ((State.shiftOut16_keeps _).mono (by simp [shiftRegs]))

/-! ### The buffer -/

/-- One byte staged changes that byte of the buffer only. -/
theorem State.bufPut_read {s : State} (h : s.buf.wf = true) (i x : Nat) (v : Byte) :
    (s.bufPut i v).buf.read x = if x = i % 512 then v else s.buf.read x := Memory.read_write h _ _ _

/-- A buffer in canonical form inside its 512 bytes. -/
def State.bufGood (s : State) : Prop := s.buf.wf = true ∧ s.buf.below 512 = true

theorem State.bufGood.bufPut {s : State} (h : s.bufGood) (i : Nat) (v : Byte) : (s.bufPut i v).bufGood :=
  ⟨Memory.write_wf h.1 _ _, Memory.write_below h.2 (Nat.mod_lt _ (by decide)) v⟩

theorem State.bufGood.stage8 {s : State} (h : s.bufGood) (q : Quad) : (s.stage8 q).bufGood :=
  State.stage8_preserves State.bufGood (fun _ i v ht => ht.bufPut i v) s q h

theorem State.bufGood.stage16 {s : State} (h : s.bufGood) (q : Quad) : (s.stage16 q).bufGood :=
  State.stage16_preserves State.bufGood (fun _ i v ht => ht.bufPut i v) s q h

end Sys2Proof.Machine
end

