-- ==== Sys2Proof/Laws/Egc.lean ====
section
/-! SUPPORT. What the shared operations of the EGC, the PC-98 decoder and the bus can do, said once. -/

namespace Sys2Proof.Machine

/-! ### Quads and lanes -/

@[simp] theorem Quad.get_ofFn (f : Plane → Half) (p : Plane) : (Quad.ofFn f).get p = f p := by
  revert p; intro p; fin_cases p <;> rfl

@[simp] theorem Quad.get_const (v : Half) (p : Plane) : (Quad.const v).get p = v := by fin_cases p <;> rfl

theorem Quad.ext_get {q r : Quad} (h : ∀ p, q.get p = r.get p) : q = r := by
  cases q; cases r
  have h0 := h 0; have h1 := h 1; have h2 := h 2; have h3 := h 3
  simp_all [Quad.get]

/-! ### The table, the light sources, the register loads -/

theorem State.ropEntry_keeps (s : State) (code : Byte) (a : Nat) : s.keepsBut [.logged] (s.ropEntry code a).2 := by
  unfold State.ropEntry
  split_ifs <;> first | exact s.keepsBut_refl _ | skip
  simp only [State.ropStub]
  rw [State.logOnce_setLogged]
  exact s.keepsBut_setLogged _

theorem State.shiftCpu_keeps (s : State) (a : Nat) (n : PortWidth) (v : Half) :
    s.keepsBut shiftRegs (s.shiftCpu a n v) := by
  unfold State.shiftCpu
  split
  · exact s.shiftThrough_keeps _ _ _
  · exact s.keepsBut_refl _

/-- A light source changes the Shifter's data path and, for a stub, `Logged`. -/
theorem State.light_keeps (s : State) (a : Nat) (n : PortWidth) (v : Half) :
    s.keepsBut (.logged :: shiftRegs) (s.light a n v).state := by
  unfold State.light
  split
  · exact s.keepsBut_refl _
  · exact ((s.shiftCpu_keeps a n v).mono (by simp [shiftRegs])).trans ((State.ropEntry_keeps _ _ _).mono (by simp))
  · unfold State.light2
    split
    · exact s.keepsBut_refl _
    · exact s.keepsBut_refl _
    · exact (s.shiftCpu_keeps a n v).mono (by simp [shiftRegs])
  · exact s.keepsBut_refl _

theorem State.tilesFromVram_keeps (s : State) (a : Nat) (n : PortWidth) : s.keepsBut [.tile] (s.tilesFromVram a n) :=
  s.keepsBut_setTile _

theorem State.tilesFromLast_keeps (s : State) (a : Nat) (n : PortWidth) : s.keepsBut [.tile] (s.tilesFromLast a n) :=
  s.keepsBut_setTile _

theorem State.snapshot_keeps (s : State) (a : Nat) (n : PortWidth) : s.keepsBut [.egcLast] (s.snapshot a n) :=
  s.keepsBut_setEgcLast _

/-! ### EGC writes and reads -/

/-- What a decoder write to VRAM keeps, the write-back keeps. -/
theorem State.writeBack_preserves (P : State → Prop) (hw : ∀ s o n v, P s → P (s.pwrite o n v)) (s : State) (a : Nat)
    (n : PortWidth) (d : Quad) (m : Half) (h : P s) : P (s.writeBack a n d m) := by
  have hp : ∀ (t : State) (acc : Half) (p : Plane), P t → P (t.writeBackPlane a n d acc p) := by
    intro t acc p ht
    unfold State.writeBackPlane
    split
    · exact ht
    · exact hw _ _ _ _ ht
  simp only [State.writeBack]
  split
  · exact h
  · simp only [planes, List.foldl]
    exact hp _ _ _ (hp _ _ _ (hp _ _ _ (hp _ _ _ h)))

theorem State.pwrite_keeps (s : State) (o : Nat) (n : PortWidth) (v : Half) : s.keepsBut [.vram] (s.pwrite o n v) := by
  rw [State.pwrite_setVram]
  exact s.keepsBut_setVram _

theorem State.writeBack_keeps (s : State) (a : Nat) (n : PortWidth) (d : Quad) (m : Half) :
    s.keepsBut [.vram] (s.writeBack a n d m) :=
  State.writeBack_preserves (fun t => s.keepsBut [.vram] t) (fun t o n v ht => ht.trans (t.pwrite_keeps o n v)) s a n d m
    (s.keepsBut_refl _)

theorem State.egcWrite_keeps (s : State) (a : Nat) (n : PortWidth) (v : Half) :
    s.keepsBut ([.vram, .tile, .logged] ++ shiftRegs) (s.egcWrite a n v) := by
  simp only [State.egcWrite]
  refine State.keepsBut.trans (t := if s.cfg.egc.regload.getLsbD 1 then s.tilesFromVram a n else s) ?_
    (((State.light_keeps _ _ _ _).mono (by simp [shiftRegs])).trans
      ((State.writeBack_keeps _ _ _ _ _).mono (by simp [shiftRegs])))
  split
  · exact (s.tilesFromVram_keeps a n).mono (by simp)
  · exact s.keepsBut_refl _

theorem State.egcReadState_keeps (s : State) (off : Nat) (n : PortWidth) :
    s.keepsBut ([.tile, .egcLast] ++ shiftRegs) (s.egcReadState off n) := by
  simp only [State.egcReadState]
  have h1 := (s.snapshot_keeps (inPlane off) n).mono (l' := [.tile, .egcLast] ++ shiftRegs) (by simp)
  refine h1.trans ?_
  generalize s.snapshot (inPlane off) n = t
  have h2 : t.keepsBut ([.tile, .egcLast] ++ shiftRegs)
      (if t.cfg.egc.regload.getLsbD 0 then t.tilesFromLast (inPlane off) n else t) := by
    split
    · exact (t.tilesFromLast_keeps _ n).mono (by simp)
    · exact t.keepsBut_refl _
  refine h2.trans ?_
  generalize (if t.cfg.egc.regload.getLsbD 0 then t.tilesFromLast (inPlane off) n else t) = u
  split
  · exact u.keepsBut_refl _
  · exact (u.shiftThrough_keeps _ _ _).mono (by simp [shiftRegs])

/-! ### Graphics accesses -/

theorem State.replicate_keeps (s : State) (n : PortWidth) (p : Plane) : s.keepsBut [.tile] (s.replicate n p) := by
  cases n
  · exact s.keepsBut_refl _
  · exact s.keepsBut_setTile _

theorem State.tileCopyPlane_keeps (s : State) (a : Nat) (n : PortWidth) (p : Plane) :
    s.keepsBut [.vram, .tile] (s.tileCopyPlane a n p) := by
  simp only [State.tileCopyPlane]
  split
  · exact ((s.replicate_keeps n p).mono (by simp)).trans ((State.pwrite_keeps _ _ _ _).mono (by simp))
  · exact s.keepsBut_refl _

theorem State.tileMaskPlane_keeps (s : State) (a : Nat) (n : PortWidth) (v : Half) (p : Plane) :
    s.keepsBut [.vram, .tile] (s.tileMaskPlane a n v p) := by
  simp only [State.tileMaskPlane]
  split
  · exact ((s.replicate_keeps n p).mono (by simp)).trans ((State.pwrite_keeps _ _ _ _).mono (by simp))
  · exact s.keepsBut_refl _

theorem State.tileCopyWrite_keeps (s : State) (a : Nat) (n : PortWidth) :
    s.keepsBut [.vram, .tile] (s.tileCopyWrite a n) := by
  simp only [State.tileCopyWrite, planes, List.foldl]
  exact (((s.tileCopyPlane_keeps a n _).trans (State.tileCopyPlane_keeps _ _ _ _)).trans
    (State.tileCopyPlane_keeps _ _ _ _)).trans (State.tileCopyPlane_keeps _ _ _ _)

theorem State.tileMaskWrite_keeps (s : State) (a : Nat) (n : PortWidth) (v : Half) :
    s.keepsBut [.vram, .tile] (s.tileMaskWrite a n v) := by
  simp only [State.tileMaskWrite, planes, List.foldl]
  exact (((s.tileMaskPlane_keeps a n v _).trans (State.tileMaskPlane_keeps _ _ _ _ _)).trans
    (State.tileMaskPlane_keeps _ _ _ _ _)).trans (State.tileMaskPlane_keeps _ _ _ _ _)

theorem State.attrWrite_keeps (s : State) (o : Nat) (n : PortWidth) (v : Half) :
    s.keepsBut [.vram] (s.attrWrite o n v) := by
  cases n
  · simp only [State.attrWrite]
    split
    · exact s.keepsBut_refl _
    · exact s.keepsBut_setVram _
  · exact s.keepsBut_setVram _

/-! ### The bus -/

/-- What every part of a read keeps, the read keeps. -/
theorem readParts_preserves (P : State → Prop) (w : Width)
    (hf : ∀ h a s v t, P s → serveRead h w a s = .next (v, t) → P t) :
    ∀ (k : Nat) (a : Word) (s : State) (v : Word) (t : State), P s → readParts w k a s = .next (v, t) → P t
  | 0, _, _, _, _, hs, e => by
    simp only [readParts, Host.Outcome.next.injEq, Prod.mk.injEq] at e
    exact e.2 ▸ hs
  | k + 1, a, s, v, t, hs, e => by
    simp only [readParts, andThen_next_iff, Host.Outcome.next.injEq, Prod.mk.injEq] at e
    obtain ⟨⟨v1, t1⟩, h1, ⟨v2, t2⟩, h2, _, rfl⟩ := e
    exact readParts_preserves P w hf k _ t1 v2 t2 (hf _ _ _ _ _ hs h1) h2

/-- What every part of a write keeps, the write keeps. -/
theorem writeParts_preserves (P : State → Prop) (w : Width)
    (hf : ∀ h a d s t, P s → serveWrite h w a d s = .next t → P t) :
    ∀ (k : Nat) (a d : Word) (s t : State), P s → writeParts w k a d s = .next t → P t
  | 0, _, _, _, _, hs, e => by
    simp only [writeParts, Host.Outcome.next.injEq] at e
    exact e ▸ hs
  | k + 1, a, d, s, t, hs, e => by
    simp only [writeParts, andThen_next_iff] at e
    obtain ⟨t1, h1, h2⟩ := e
    exact writeParts_preserves P w hf k _ _ t1 t (hf _ _ _ _ _ hs h1) h2

/-- The same for the wrapper's decoder accesses. -/
theorem decoderReads_preserves (P : State → Prop) (n : PortWidth)
    (hf : ∀ a s v t, P s → decoderRead n a s = .next (v, t) → P t) :
    ∀ (k : Nat) (a : Word) (s : State) (v : Word) (t : State), P s → decoderReads n k a s = .next (v, t) → P t
  | 0, _, _, _, _, hs, e => by
    simp only [decoderReads, Host.Outcome.next.injEq, Prod.mk.injEq] at e
    exact e.2 ▸ hs
  | k + 1, a, s, v, t, hs, e => by
    simp only [decoderReads, andThen_next_iff, Host.Outcome.next.injEq, Prod.mk.injEq] at e
    obtain ⟨⟨v1, t1⟩, h1, ⟨v2, t2⟩, h2, _, rfl⟩ := e
    exact decoderReads_preserves P n hf k _ t1 v2 t2 (hf _ _ _ _ hs h1) h2

theorem decoderWrites_preserves (P : State → Prop) (n : PortWidth)
    (hf : ∀ a v s t, P s → decoderWrite n a v s = .next t → P t) :
    ∀ (k : Nat) (a d : Word) (s t : State), P s → decoderWrites n k a d s = .next t → P t
  | 0, _, _, _, _, hs, e => by
    simp only [decoderWrites, Host.Outcome.next.injEq] at e
    exact e ▸ hs
  | k + 1, a, d, s, t, hs, e => by
    simp only [decoderWrites, andThen_next_iff] at e
    obtain ⟨t1, h1, h2⟩ := e
    exact decoderWrites_preserves P n hf k _ _ t1 t (hf _ _ _ _ hs h1) h2

end Sys2Proof.Machine
end

