-- ==== Sys2Proof/Laws/Linear.lean ====
section
/-! SUPPORT. What the shared read and write of the byte-linear handlers can do, said once (R76). -/

namespace Sys2Proof.Machine

/-! ### Bytes of assembled values -/

theorem byteOf_getLsbD (v : Word) (k i : Nat) : (byteOf v k).getLsbD i = (decide (i < 8) && v.getLsbD (8 * k + i)) := by
  simp [byteOf]

/-- Putting a byte below a value shifts the value's bytes up by one. -/
theorem byteOf_shift_zero (q : Word) (b : Byte) : byteOf ((q <<< 8) ||| b.setWidth 32) 0 = b := by
  apply BitVec.eq_of_getLsbD_eq
  intro i hi
  simp [byteOf_getLsbD, hi, show i < 32 by omega, -BitVec.getLsbD_eq_getElem]

theorem byteOf_shift_succ (q : Word) (b : Byte) (k : Nat) (hk : k + 1 < 4) :
    byteOf ((q <<< 8) ||| b.setWidth 32) (k + 1) = byteOf q k := by
  apply BitVec.eq_of_getLsbD_eq
  intro i hi
  have h1 : 8 * (k + 1) + i < 32 := by omega
  have h2 : b.getLsbD (8 * (k + 1) + i) = false := BitVec.getLsbD_of_ge _ _ (by omega)
  simp [byteOf_getLsbD, hi, h1, h2, show ¬ 8 * (k + 1) + i < 8 by omega, show 8 * (k + 1) + i - 8 = 8 * k + i by omega, -BitVec.getLsbD_eq_getElem]

theorem byteOf_le32 (b0 b1 b2 b3 : Byte) (k : Nat) (hk : k < 4) :
    byteOf (le32 b0 b1 b2 b3) k = [b0, b1, b2, b3].getD k 0#8 := by
  apply BitVec.eq_of_getLsbD_eq
  intro i hi
  have : k = 0 ∨ k = 1 ∨ k = 2 ∨ k = 3 := by omega
  obtain rfl | rfl | rfl | rfl := this <;>
    simp only [byteOf_getLsbD, le32_getLsbD, le16_getLsbD, hi, decide_true, Bool.true_and, List.getD_cons_zero,
      List.getD_cons_succ] <;>
    split_ifs <;> first | omega | (congr 1; omega)

theorem byteOf_half (b0 b1 : Byte) (k : Nat) (hk : k < 2) :
    byteOf ((le16 b0 b1).setWidth 32) k = [b0, b1].getD k 0#8 := by
  apply BitVec.eq_of_getLsbD_eq
  intro i hi
  have : k = 0 ∨ k = 1 := by omega
  obtain rfl | rfl := this <;>
    simp only [byteOf_getLsbD, le16_getLsbD, BitVec.getLsbD_setWidth, hi, decide_true, Bool.true_and,
      List.getD_cons_zero, List.getD_cons_succ] <;>
    split_ifs <;> simp <;> omega

theorem byteOf_byte (b : Byte) : byteOf (b.setWidth 32) 0 = b := by
  apply BitVec.eq_of_getLsbD_eq
  intro i hi
  simp [byteOf_getLsbD, hi, show i < 32 by omega, -BitVec.getLsbD_eq_getElem]

/-- Byte `k` of `VRead(o, n)` is the VRAM byte at `o + k`, wrapped on its own (R14). -/
theorem State.byteOf_vread (s : State) (o : Nat) (w : Width) (k : Nat) (hk : k < widthBytes w) :
    byteOf (s.vread o w) k = s.vramAt (s.wrap (o + k)) := by
  cases w <;> simp only [widthBytes] at hk
  · obtain rfl : k = 0 := by omega
    exact byteOf_byte _
  · have : k = 0 ∨ k = 1 := by omega
    obtain rfl | rfl := this <;> exact byteOf_half _ _ _ (by omega)
  · have : k = 0 ∨ k = 1 ∨ k = 2 ∨ k = 3 := by omega
    obtain rfl | rfl | rfl | rfl := this <;> exact byteOf_le32 _ _ _ _ _ (by omega)

/-- Byte `k` of a read decomposed over one state is the byte at `addr + k`. -/
theorem byteOf_readBytes (g : State → Word → Byte) (s : State) : ∀ (n : Nat) (addr : Word) (k : Nat), n ≤ 4 → k < n →
    byteOf (readBytes (fun x t => (g t x, t)) n addr s).1 k = g s (addr + BitVec.ofNat 32 k)
  | 0, _, _, _, hk => absurd hk (by omega)
  | n + 1, addr, 0, _, _ => by
    simp only [readBytes]
    rw [byteOf_shift_zero]; simp
  | n + 1, addr, k + 1, hn, hk => by
    simp only [readBytes]
    rw [byteOf_shift_succ _ _ _ (by omega), byteOf_readBytes g s n (addr + 1) k (by omega) (by omega), BitVec.add_assoc]
    rw [show (1 : Word) + BitVec.ofNat 32 k = BitVec.ofNat 32 (k + 1) by rw [Nat.add_comm, BitVec.ofNat_add]; rfl]

/-! ### The shared read and write -/

/-- The VRAM offset of byte `k` of a byte-linear access: consecutive from the first byte's place where its flat address is
a multiple of the width, the place of the byte's own flat address elsewhere (R76). -/
def linearOffset (s : State) (flat : Word → Nat) (place : Nat → Nat) (n : Nat) (addr : Word) (k : Nat) : Nat :=
  s.wrap (if flat addr % n = 0 then place (flat addr) + k else place (flat (addr + BitVec.ofNat 32 k)))

/-- Byte `k` of a byte-linear read is the VRAM byte at its offset. -/
theorem byteOf_linearRead (flat : Word → Nat) (place : Nat → Nat) (w : Width) (addr : Word) (s : State) (k : Nat)
    (hk : k < widthBytes w) :
    byteOf (linearRead flat place w addr s) k = s.vramAt (linearOffset s flat place (widthBytes w) addr k) := by
  unfold linearRead linearOffset
  split
  · exact s.byteOf_vread _ _ _ hk
  · refine (byteOf_readBytes (fun t x => t.vbyte (place (flat x))) s _ _ _ ?_ hk).trans rfl
    cases w <;> simp [widthBytes]

/-- A decomposed write of VRAM bytes stores byte `k` at the place of `addr + k`, later bytes last. -/
theorem writeBytes_vramAt (place : Word → Nat) (x : Nat) : ∀ (n : Nat) (addr data : Word) (s : State), s.vram.wf = true →
    (writeBytes (fun y b t => t.putByte (place y) b) n addr data s).vramAt x =
      (List.range n).foldl (fun b k => if s.wrap (place (addr + BitVec.ofNat 32 k)) = x then byteOf data k else b)
        (s.vramAt x)
  | 0, _, _, _, _ => rfl
  | n + 1, addr, data, s, h => by
    rw [writeBytes, writeBytes_vramAt place x n (addr + 1) (data >>> 8) _ (State.putByte_wf h _ _),
      List.range_succ_eq_map, List.foldl_cons, List.foldl_map, State.putByte_vramAt h]
    have h0 : addr + BitVec.ofNat 32 0 = addr := by simp
    have hb : data.setWidth 8 = byteOf data 0 := by
      apply BitVec.eq_of_getLsbD_eq
      intro i hi
      simp [byteOf_getLsbD, hi, -BitVec.getLsbD_eq_getElem]
    have hk : ∀ k : Nat, addr + 1 + BitVec.ofNat 32 k = addr + BitVec.ofNat 32 k.succ := fun k => by
      rw [BitVec.add_assoc, Nat.succ_eq_add_one, Nat.add_comm k, BitVec.ofNat_add]; rfl
    have hd : ∀ k : Nat, byteOf (data >>> 8) k = byteOf data k.succ := fun k => by
      apply BitVec.eq_of_getLsbD_eq
      intro i hi
      simp [byteOf_getLsbD, hi, show 8 + (8 * k + i) = 8 * (k + 1) + i by omega, -BitVec.getLsbD_eq_getElem]
    simp only [h0, hb, hk, hd, State.putByte_wrap, eq_comm (a := x)]

/-- A byte-linear write stores byte `k` at its offset, later bytes last, and nothing else. -/
theorem linearWrite_vramAt (flat : Word → Nat) (place : Nat → Nat) (w : Width) (addr data : Word) {s : State}
    (h : s.vram.wf = true) (x : Nat) :
    (linearWrite flat place w addr data s).vramAt x =
      (List.range (widthBytes w)).foldl
        (fun b k => if linearOffset s flat place (widthBytes w) addr k = x then byteOf data k else b) (s.vramAt x) := by
  unfold linearWrite
  split
  case isFalse hs =>
    rw [writeBytes_vramAt (fun y => place (flat y)) x _ _ _ s h]
    simp only [linearOffset, hs, if_false]
  case isTrue hs =>
    simp only [linearOffset, hs, if_true]
    have hb : data.setWidth 8 = byteOf data 0 := by
      apply BitVec.eq_of_getLsbD_eq
      intro i hi
      simp [byteOf_getLsbD, hi, -BitVec.getLsbD_eq_getElem]
    have he : ∀ k, k < 2 → (data.setWidth 16).extractLsb' (8 * k) 8 = byteOf data k := fun k hk => by
      apply BitVec.eq_of_getLsbD_eq
      intro i hi
      simp [byteOf_getLsbD, hi, show 8 * k + i < 16 by omega, -BitVec.getLsbD_eq_getElem]
    have e0 := he 0 (by omega)
    have e1 := he 1 (by omega)
    cases w
    · simp [State.vwrite, widthBytes, State.putByte_vramAt h, hb, eq_comm (a := x), List.range_succ]
    · simp only [Nat.mul_zero, Nat.mul_one] at e0 e1
      simp [State.vwrite, widthBytes, State.putHalf_vramAt h, e0, e1, eq_comm (a := x), List.range_succ]
    · simp [State.vwrite, widthBytes, State.putWord_vramAt h, eq_comm (a := x), List.range_succ]

/-! ### The flat addresses of the four handlers -/

theorem State.linearFlatRead_eq (s : State) (addr : Word) :
    s.linearFlatRead addr = s.linearAt .linear s.binding.bankReadFull addr := by
  simp only [State.linearFlatRead, State.linearAt, if_true]
  cases s.lfbOf addr <;> rfl

theorem State.linearFlatWrite_eq (s : State) (addr : Word) :
    s.linearFlatWrite addr = s.linearAt .linear s.binding.bankWriteFull addr := by
  simp only [State.linearFlatWrite, State.linearAt, if_true]
  cases s.lfbOf addr <;> rfl

theorem State.flatRead_eq (s : State) {h : Tag} (hh : h ≠ .linear) (addr : Word) :
    s.flatRead addr = s.linearAt h s.binding.bankReadFull addr := by
  simp only [State.linearAt, hh, if_false]; rfl

theorem State.flatWrite_eq (s : State) {h : Tag} (hh : h ≠ .linear) (addr : Word) :
    s.flatWrite addr = s.linearAt h s.binding.bankWriteFull addr := by
  simp only [State.linearAt, hh, if_false]; rfl

theorem chain4Place_eq (a : Nat) : chain4Place a = linearPlace .chainedVga a := by
  simp only [chain4Place, linearPlace, if_true]; omega

theorem flatPlace_eq {h : Tag} (hh : h ≠ .chainedVga) (a : Nat) : flatPlace a = linearPlace h a := by
  simp only [flatPlace, linearPlace, hh, if_false]

end Sys2Proof.Machine
end

