-- ==== Sys2Proof/Laws/PerInstr.lean ====
section
/-! SUPPORT. Families of lemmas, one lemma per constructor of Instr. -/

namespace Sys2Proof.Laws.SelectorRow

/-- The mask and the match of the row of spec/opcode_table.json that an instruction stands for; the row `EGCROP.PAT` has
the parameter's code in its match. -/
def row : Instr → Half × Half
  | .rd8 _ => (0xF0FF#16, 0xB000#16)
  | .rd16 _ => (0xF0FF#16, 0xB001#16)
  | .rd32 _ => (0xF0FF#16, 0xB002#16)
  | .wr8 _ _ => (0xF0FF#16, 0xB004#16)
  | .wr16 _ _ => (0xF0FF#16, 0xB005#16)
  | .wr32 _ _ => (0xF0FF#16, 0xB006#16)
  | .cfg _ _ => (0xF0FF#16, 0xB080#16)
  | .dispatch => (0xF0FF#16, 0xB081#16)
  | .reset => (0xF0FF#16, 0xB082#16)
  | .egcReinit => (0xF0FF#16, 0xB083#16)
  | .tileLoad _ _ => (0xF0FF#16, 0xB084#16)
  | .ropNone _ _ => (0xF003#16, 0x3000#16)
  | .ropAnd _ _ => (0xF003#16, 0x3001#16)
  | .ropOr _ _ => (0xF003#16, 0x3002#16)
  | .ropXor _ _ => (0xF003#16, 0x3003#16)
  | .wm0 _ => (0xF0FF#16, 0x1000#16)
  | .wm1 _ => (0xF0FF#16, 0x1001#16)
  | .wm2 _ => (0xF0FF#16, 0x1002#16)
  | .wm3 _ => (0xF0FF#16, 0x1003#16)
  | .wmUnsup _ _ => (0xF000#16, 0x1000#16)
  | .rm0 _ _ _ => (0xF001#16, 0x2000#16)
  | .rm1 _ _ _ => (0xF001#16, 0x2001#16)
  | .unmappedRd _ _ => (0xFF04#16, 0x0000#16)
  | .unmappedWr _ _ _ => (0xFF04#16, 0x0004#16)
  | .unchainedRd _ _ => (0xFF04#16, 0x0100#16)
  | .unchainedWr _ _ _ => (0xFF04#16, 0x0104#16)
  | .chainedEgaRd _ _ => (0xFF04#16, 0x0200#16)
  | .chainedEgaWr _ _ _ => (0xFF04#16, 0x0204#16)
  | .chainedVgaRd _ _ => (0xFF04#16, 0x0300#16)
  | .chainedVgaWr _ _ _ => (0xFF04#16, 0x0304#16)
  | .chainedVgaSlowRd _ _ => (0xFF04#16, 0x0400#16)
  | .chainedVgaSlowWr _ _ _ => (0xFF04#16, 0x0404#16)
  | .chainedVgaEt4kRd _ _ => (0xFF04#16, 0x0500#16)
  | .chainedVgaEt4kWr _ _ _ => (0xFF04#16, 0x0504#16)
  | .chainedVgaEt4kSlowRd _ _ => (0xFF04#16, 0x0600#16)
  | .chainedVgaEt4kSlowWr _ _ _ => (0xFF04#16, 0x0604#16)
  | .linearRd _ _ => (0xFF04#16, 0x0700#16)
  | .linearWr _ _ _ => (0xFF04#16, 0x0704#16)
  | .pc98Rd _ _ => (0xFF04#16, 0x0800#16)
  | .pc98Wr _ _ _ => (0xFF04#16, 0x0804#16)
  | .textRd _ _ => (0xFF04#16, 0x0900#16)
  | .textWr _ _ _ => (0xFF04#16, 0x0904#16)
  | .cgaSnowTextRd _ _ => (0xFF04#16, 0x0A00#16)
  | .cgaSnowTextWr _ _ _ => (0xFF04#16, 0x0A04#16)
  | .herculesRd _ _ => (0xFF04#16, 0x0B00#16)
  | .herculesWr _ _ _ => (0xFF04#16, 0x0B04#16)
  | .tandyRd _ _ => (0xFF04#16, 0x0C00#16)
  | .tandyWr _ _ _ => (0xFF04#16, 0x0C04#16)
  | .pcjrRd _ _ => (0xFF04#16, 0x0D00#16)
  | .pcjrWr _ _ _ => (0xFF04#16, 0x0D04#16)
  | .amstradRd _ _ => (0xFF04#16, 0x0E00#16)
  | .amstradWr _ _ _ => (0xFF04#16, 0x0E04#16)
  | .pc98MswRd _ _ => (0xF017#16, 0xA007#16)
  | .pc98MswWr _ _ _ => (0xF017#16, 0xA017#16)
  | .pc98CharRd _ _ => (0xF017#16, 0xA000#16)
  | .pc98CharWr _ _ _ => (0xF017#16, 0xA010#16)
  | .pc98AttrRd _ _ => (0xF017#16, 0xA001#16)
  | .pc98AttrWr _ _ _ => (0xF017#16, 0xA011#16)
  | .pc98UnknownRd _ _ => (0xF017#16, 0xA002#16)
  | .pc98UnknownWr _ _ _ => (0xF017#16, 0xA012#16)
  | .pc98AbsentRd _ _ => (0xF017#16, 0xA003#16)
  | .pc98AbsentWr _ _ _ => (0xF017#16, 0xA013#16)
  | .pc98GraphicsRd _ _ => (0xF017#16, 0xA004#16)
  | .pc98GraphicsWr _ _ _ => (0xF017#16, 0xA014#16)
  | .vopPassRd _ _ _ => (0xF018#16, 0x5000#16)
  | .vopPassWr _ _ _ _ => (0xF018#16, 0x5010#16)
  | .vopTileCopyRd _ _ _ => (0xF01E#16, 0x5008#16)
  | .vopTileCopyWr _ _ _ _ => (0xF01E#16, 0x5018#16)
  | .vopTileMaskRd _ _ _ => (0xF01E#16, 0x500C#16)
  | .vopTileMaskWr _ _ _ _ => (0xF01E#16, 0x501C#16)
  | .vopEgcRd _ _ _ => (0xF01A#16, 0x500A#16)
  | .vopEgcWr _ _ _ _ => (0xF01A#16, 0x501A#16)
  | .shReinit => (0xF007#16, 0xC000#16)
  | .shIn8 _ _ _ _ _ => (0xF007#16, 0xC001#16)
  | .shIn16 _ _ _ _ => (0xF007#16, 0xC002#16)
  | .shOut8 _ _ => (0xF007#16, 0xC003#16)
  | .shOut16 => (0xF007#16, 0xC004#16)
  | .shDmask => (0xF007#16, 0xC005#16)
  | .egcLs0 _ _ _ => (0xF003#16, 0x7000#16)
  | .egcLs1 _ _ _ => (0xF003#16, 0x7001#16)
  | .egcLs2 _ _ _ => (0xF003#16, 0x7002#16)
  | .egcLs3 _ _ _ => (0xF003#16, 0x7003#16)
  | .egcFgc0 => (0xF003#16, 0x8000#16)
  | .egcFgc1 => (0xF003#16, 0x8001#16)
  | .egcFgc2 => (0xF003#16, 0x8002#16)
  | .egcFgc3 => (0xF003#16, 0x8003#16)
  | .egcRlNone => (0xF003#16, 0x9000#16)
  | .egcRlRead _ _ _ => (0xF001#16, 0x9001#16)
  | .egcRlWrite _ _ => (0xF002#16, 0x9002#16)
  | .egcropC0 _ => (0xF0FF#16, 0x60C0#16)
  | .egcropF0 _ => (0xF0FF#16, 0x60F0#16)
  | .egcropFC _ => (0xF0FF#16, 0x60FC#16)
  | .egcrop0C _ => (0xF0FF#16, 0x600C#16)
  | .egcropPat code _ => (0xF0FF#16, 0x60#8 ++ code)
  | .egcropStub _ _ => (0xF000#16, 0x6000#16)
  | .dispUnmapped => (0xF00F#16, 0xD000#16)
  | .dispUnchained => (0xF00F#16, 0xD001#16)
  | .dispChainedEga => (0xF00F#16, 0xD002#16)
  | .dispChainedVga => (0xF00F#16, 0xD003#16)
  | .dispChainedVgaSlow => (0xF00F#16, 0xD004#16)
  | .dispChainedVgaEt4k => (0xF00F#16, 0xD005#16)
  | .dispChainedVgaEt4kSlow => (0xF00F#16, 0xD006#16)
  | .dispLinear => (0xF00F#16, 0xD007#16)
  | .dispPc98 => (0xF00F#16, 0xD008#16)
  | .dispText => (0xF00F#16, 0xD009#16)
  | .dispCgaSnowText => (0xF00F#16, 0xD00A#16)
  | .dispHercules => (0xF00F#16, 0xD00B#16)
  | .dispTandy => (0xF00F#16, 0xD00C#16)
  | .dispPcjr => (0xF00F#16, 0xD00D#16)
  | .dispAmstrad => (0xF00F#16, 0xD00E#16)
  | .winsel0 _ => (0xF003#16, 0x4000#16)
  | .winsel1 _ => (0xF003#16, 0x4001#16)
  | .winsel2 _ => (0xF003#16, 0x4002#16)
  | .winsel3 _ => (0xF003#16, 0x4003#16)

/-- The selector word an instruction is encoded with is matched by its own row (R105). -/
def Statement (i : Instr) : Prop := (encodeFrame i).sel &&& (row i).1 = (row i).2

/-- An instruction's selector word and row, computed, and the match of the two. -/
theorem of_row {i : Instr} (v m k : Half) (hs : (encodeFrame i).sel = v) (hr : row i = (m, k)) (h : v &&& m = k) :
    Statement i := by
  unfold Statement
  rw [hs, hr]
  exact h

theorem rd8 (addr : Word) : Statement (.rd8 addr) :=
  of_row (0xB0#8 ++ 0x00#8) 0xF0FF#16 0xB000#16 rfl rfl (by decide)
theorem rd16 (addr : Word) : Statement (.rd16 addr) :=
  of_row (0xB0#8 ++ 0x01#8) 0xF0FF#16 0xB001#16 rfl rfl (by decide)
theorem rd32 (addr : Word) : Statement (.rd32 addr) :=
  of_row (0xB0#8 ++ 0x02#8) 0xF0FF#16 0xB002#16 rfl rfl (by decide)
theorem wr8 (addr : Word) (v : Byte) : Statement (.wr8 addr v) :=
  of_row (0xB0#8 ++ 0x04#8) 0xF0FF#16 0xB004#16 rfl rfl (by decide)
theorem wr16 (addr : Word) (v : Half) : Statement (.wr16 addr v) :=
  of_row (0xB0#8 ++ 0x05#8) 0xF0FF#16 0xB005#16 rfl rfl (by decide)
theorem wr32 (addr : Word) (v : Word) : Statement (.wr32 addr v) :=
  of_row (0xB0#8 ++ 0x06#8) 0xF0FF#16 0xB006#16 rfl rfl (by decide)
theorem cfg (field : CfgField) (v : Word) : Statement (.cfg field v) :=
  of_row (0xB0#8 ++ 0x80#8) 0xF0FF#16 0xB080#16 rfl rfl (by decide)
theorem dispatch : Statement .dispatch :=
  of_row (0xB0#8 ++ 0x81#8) 0xF0FF#16 0xB081#16 rfl rfl (by decide)
theorem reset : Statement .reset :=
  of_row (0xB0#8 ++ 0x82#8) 0xF0FF#16 0xB082#16 rfl rfl (by decide)
theorem egcReinit : Statement .egcReinit :=
  of_row (0xB0#8 ++ 0x83#8) 0xF0FF#16 0xB083#16 rfl rfl (by decide)
theorem tileLoad (p : Plane) (v : Half) : Statement (.tileLoad p v) :=
  of_row (0xB0#8 ++ 0x84#8) 0xF0FF#16 0xB084#16 rfl rfl (by decide)
theorem ropNone (input mask : Word) : Statement (.ropNone input mask) :=
  of_row 0x3000#16 0xF003#16 0x3000#16 rfl rfl (by decide)
theorem ropAnd (input mask : Word) : Statement (.ropAnd input mask) :=
  of_row 0x3001#16 0xF003#16 0x3001#16 rfl rfl (by decide)
theorem ropOr (input mask : Word) : Statement (.ropOr input mask) :=
  of_row 0x3002#16 0xF003#16 0x3002#16 rfl rfl (by decide)
theorem ropXor (input mask : Word) : Statement (.ropXor input mask) :=
  of_row 0x3003#16 0xF003#16 0x3003#16 rfl rfl (by decide)
theorem wm0 (val : Byte) : Statement (.wm0 val) :=
  of_row 0x1000#16 0xF0FF#16 0x1000#16 rfl rfl (by decide)
theorem wm1 (val : Byte) : Statement (.wm1 val) :=
  of_row 0x1001#16 0xF0FF#16 0x1001#16 rfl rfl (by decide)
theorem wm2 (val : Byte) : Statement (.wm2 val) :=
  of_row 0x1002#16 0xF0FF#16 0x1002#16 rfl rfl (by decide)
theorem wm3 (val : Byte) : Statement (.wm3 val) :=
  of_row 0x1003#16 0xF0FF#16 0x1003#16 rfl rfl (by decide)
theorem wmUnsup (mode val : Byte) : Statement (.wmUnsup mode val) :=
  of_row (0x10#8 ++ mode) 0xF000#16 0x1000#16 rfl rfl (by revert mode; decide)
theorem rm0 (idx : Word) (raw : Bool) (plane : Plane) : Statement (.rm0 idx raw plane) :=
  of_row 0x2000#16 0xF001#16 0x2000#16 rfl rfl (by decide)
theorem rm1 (idx : Word) (raw : Bool) (plane : Plane) : Statement (.rm1 idx raw plane) :=
  of_row 0x2001#16 0xF001#16 0x2001#16 rfl rfl (by decide)
theorem unmappedRd (w : Width) (addr : Word) : Statement (.unmappedRd w addr) := by
  cases w
  · exact of_row 0x0000#16 0xFF04#16 0x0000#16 rfl rfl (by decide)
  · exact of_row 0x0001#16 0xFF04#16 0x0000#16 rfl rfl (by decide)
  · exact of_row 0x0002#16 0xFF04#16 0x0000#16 rfl rfl (by decide)
theorem unmappedWr (w : Width) (addr data : Word) : Statement (.unmappedWr w addr data) := by
  cases w
  · exact of_row 0x0004#16 0xFF04#16 0x0004#16 rfl rfl (by decide)
  · exact of_row 0x0005#16 0xFF04#16 0x0004#16 rfl rfl (by decide)
  · exact of_row 0x0006#16 0xFF04#16 0x0004#16 rfl rfl (by decide)
theorem unchainedRd (w : Width) (addr : Word) : Statement (.unchainedRd w addr) := by
  cases w
  · exact of_row 0x0100#16 0xFF04#16 0x0100#16 rfl rfl (by decide)
  · exact of_row 0x0101#16 0xFF04#16 0x0100#16 rfl rfl (by decide)
  · exact of_row 0x0102#16 0xFF04#16 0x0100#16 rfl rfl (by decide)
theorem unchainedWr (w : Width) (addr data : Word) : Statement (.unchainedWr w addr data) := by
  cases w
  · exact of_row 0x0104#16 0xFF04#16 0x0104#16 rfl rfl (by decide)
  · exact of_row 0x0105#16 0xFF04#16 0x0104#16 rfl rfl (by decide)
  · exact of_row 0x0106#16 0xFF04#16 0x0104#16 rfl rfl (by decide)
theorem chainedEgaRd (w : Width) (addr : Word) : Statement (.chainedEgaRd w addr) := by
  cases w
  · exact of_row 0x0200#16 0xFF04#16 0x0200#16 rfl rfl (by decide)
  · exact of_row 0x0201#16 0xFF04#16 0x0200#16 rfl rfl (by decide)
  · exact of_row 0x0202#16 0xFF04#16 0x0200#16 rfl rfl (by decide)
theorem chainedEgaWr (w : Width) (addr data : Word) : Statement (.chainedEgaWr w addr data) := by
  cases w
  · exact of_row 0x0204#16 0xFF04#16 0x0204#16 rfl rfl (by decide)
  · exact of_row 0x0205#16 0xFF04#16 0x0204#16 rfl rfl (by decide)
  · exact of_row 0x0206#16 0xFF04#16 0x0204#16 rfl rfl (by decide)
theorem chainedVgaRd (w : Width) (addr : Word) : Statement (.chainedVgaRd w addr) := by
  cases w
  · exact of_row 0x0300#16 0xFF04#16 0x0300#16 rfl rfl (by decide)
  · exact of_row 0x0301#16 0xFF04#16 0x0300#16 rfl rfl (by decide)
  · exact of_row 0x0302#16 0xFF04#16 0x0300#16 rfl rfl (by decide)
theorem chainedVgaWr (w : Width) (addr data : Word) : Statement (.chainedVgaWr w addr data) := by
  cases w
  · exact of_row 0x0304#16 0xFF04#16 0x0304#16 rfl rfl (by decide)
  · exact of_row 0x0305#16 0xFF04#16 0x0304#16 rfl rfl (by decide)
  · exact of_row 0x0306#16 0xFF04#16 0x0304#16 rfl rfl (by decide)
theorem chainedVgaSlowRd (w : Width) (addr : Word) : Statement (.chainedVgaSlowRd w addr) := by
  cases w
  · exact of_row 0x0400#16 0xFF04#16 0x0400#16 rfl rfl (by decide)
  · exact of_row 0x0401#16 0xFF04#16 0x0400#16 rfl rfl (by decide)
  · exact of_row 0x0402#16 0xFF04#16 0x0400#16 rfl rfl (by decide)
theorem chainedVgaSlowWr (w : Width) (addr data : Word) : Statement (.chainedVgaSlowWr w addr data) := by
  cases w
  · exact of_row 0x0404#16 0xFF04#16 0x0404#16 rfl rfl (by decide)
  · exact of_row 0x0405#16 0xFF04#16 0x0404#16 rfl rfl (by decide)
  · exact of_row 0x0406#16 0xFF04#16 0x0404#16 rfl rfl (by decide)
theorem chainedVgaEt4kRd (w : Width) (addr : Word) : Statement (.chainedVgaEt4kRd w addr) := by
  cases w
  · exact of_row 0x0500#16 0xFF04#16 0x0500#16 rfl rfl (by decide)
  · exact of_row 0x0501#16 0xFF04#16 0x0500#16 rfl rfl (by decide)
  · exact of_row 0x0502#16 0xFF04#16 0x0500#16 rfl rfl (by decide)
theorem chainedVgaEt4kWr (w : Width) (addr data : Word) : Statement (.chainedVgaEt4kWr w addr data) := by
  cases w
  · exact of_row 0x0504#16 0xFF04#16 0x0504#16 rfl rfl (by decide)
  · exact of_row 0x0505#16 0xFF04#16 0x0504#16 rfl rfl (by decide)
  · exact of_row 0x0506#16 0xFF04#16 0x0504#16 rfl rfl (by decide)
theorem chainedVgaEt4kSlowRd (w : Width) (addr : Word) : Statement (.chainedVgaEt4kSlowRd w addr) := by
  cases w
  · exact of_row 0x0600#16 0xFF04#16 0x0600#16 rfl rfl (by decide)
  · exact of_row 0x0601#16 0xFF04#16 0x0600#16 rfl rfl (by decide)
  · exact of_row 0x0602#16 0xFF04#16 0x0600#16 rfl rfl (by decide)
theorem chainedVgaEt4kSlowWr (w : Width) (addr data : Word) : Statement (.chainedVgaEt4kSlowWr w addr data) := by
  cases w
  · exact of_row 0x0604#16 0xFF04#16 0x0604#16 rfl rfl (by decide)
  · exact of_row 0x0605#16 0xFF04#16 0x0604#16 rfl rfl (by decide)
  · exact of_row 0x0606#16 0xFF04#16 0x0604#16 rfl rfl (by decide)
theorem linearRd (w : Width) (addr : Word) : Statement (.linearRd w addr) := by
  cases w
  · exact of_row 0x0700#16 0xFF04#16 0x0700#16 rfl rfl (by decide)
  · exact of_row 0x0701#16 0xFF04#16 0x0700#16 rfl rfl (by decide)
  · exact of_row 0x0702#16 0xFF04#16 0x0700#16 rfl rfl (by decide)
theorem linearWr (w : Width) (addr data : Word) : Statement (.linearWr w addr data) := by
  cases w
  · exact of_row 0x0704#16 0xFF04#16 0x0704#16 rfl rfl (by decide)
  · exact of_row 0x0705#16 0xFF04#16 0x0704#16 rfl rfl (by decide)
  · exact of_row 0x0706#16 0xFF04#16 0x0704#16 rfl rfl (by decide)
theorem pc98Rd (w : Width) (addr : Word) : Statement (.pc98Rd w addr) := by
  cases w
  · exact of_row 0x0800#16 0xFF04#16 0x0800#16 rfl rfl (by decide)
  · exact of_row 0x0801#16 0xFF04#16 0x0800#16 rfl rfl (by decide)
  · exact of_row 0x0802#16 0xFF04#16 0x0800#16 rfl rfl (by decide)
theorem pc98Wr (w : Width) (addr data : Word) : Statement (.pc98Wr w addr data) := by
  cases w
  · exact of_row 0x0804#16 0xFF04#16 0x0804#16 rfl rfl (by decide)
  · exact of_row 0x0805#16 0xFF04#16 0x0804#16 rfl rfl (by decide)
  · exact of_row 0x0806#16 0xFF04#16 0x0804#16 rfl rfl (by decide)
theorem textRd (w : Width) (addr : Word) : Statement (.textRd w addr) := by
  cases w
  · exact of_row 0x0900#16 0xFF04#16 0x0900#16 rfl rfl (by decide)
  · exact of_row 0x0901#16 0xFF04#16 0x0900#16 rfl rfl (by decide)
  · exact of_row 0x0902#16 0xFF04#16 0x0900#16 rfl rfl (by decide)
theorem textWr (w : Width) (addr data : Word) : Statement (.textWr w addr data) := by
  cases w
  · exact of_row 0x0904#16 0xFF04#16 0x0904#16 rfl rfl (by decide)
  · exact of_row 0x0905#16 0xFF04#16 0x0904#16 rfl rfl (by decide)
  · exact of_row 0x0906#16 0xFF04#16 0x0904#16 rfl rfl (by decide)
theorem cgaSnowTextRd (w : Width) (addr : Word) : Statement (.cgaSnowTextRd w addr) := by
  cases w
  · exact of_row 0x0A00#16 0xFF04#16 0x0A00#16 rfl rfl (by decide)
  · exact of_row 0x0A01#16 0xFF04#16 0x0A00#16 rfl rfl (by decide)
  · exact of_row 0x0A02#16 0xFF04#16 0x0A00#16 rfl rfl (by decide)
theorem cgaSnowTextWr (w : Width) (addr data : Word) : Statement (.cgaSnowTextWr w addr data) := by
  cases w
  · exact of_row 0x0A04#16 0xFF04#16 0x0A04#16 rfl rfl (by decide)
  · exact of_row 0x0A05#16 0xFF04#16 0x0A04#16 rfl rfl (by decide)
  · exact of_row 0x0A06#16 0xFF04#16 0x0A04#16 rfl rfl (by decide)
theorem herculesRd (w : Width) (addr : Word) : Statement (.herculesRd w addr) := by
  cases w
  · exact of_row 0x0B00#16 0xFF04#16 0x0B00#16 rfl rfl (by decide)
  · exact of_row 0x0B01#16 0xFF04#16 0x0B00#16 rfl rfl (by decide)
  · exact of_row 0x0B02#16 0xFF04#16 0x0B00#16 rfl rfl (by decide)
theorem herculesWr (w : Width) (addr data : Word) : Statement (.herculesWr w addr data) := by
  cases w
  · exact of_row 0x0B04#16 0xFF04#16 0x0B04#16 rfl rfl (by decide)
  · exact of_row 0x0B05#16 0xFF04#16 0x0B04#16 rfl rfl (by decide)
  · exact of_row 0x0B06#16 0xFF04#16 0x0B04#16 rfl rfl (by decide)
theorem tandyRd (w : Width) (addr : Word) : Statement (.tandyRd w addr) := by
  cases w
  · exact of_row 0x0C00#16 0xFF04#16 0x0C00#16 rfl rfl (by decide)
  · exact of_row 0x0C01#16 0xFF04#16 0x0C00#16 rfl rfl (by decide)
  · exact of_row 0x0C02#16 0xFF04#16 0x0C00#16 rfl rfl (by decide)
theorem tandyWr (w : Width) (addr data : Word) : Statement (.tandyWr w addr data) := by
  cases w
  · exact of_row 0x0C04#16 0xFF04#16 0x0C04#16 rfl rfl (by decide)
  · exact of_row 0x0C05#16 0xFF04#16 0x0C04#16 rfl rfl (by decide)
  · exact of_row 0x0C06#16 0xFF04#16 0x0C04#16 rfl rfl (by decide)
theorem pcjrRd (w : Width) (addr : Word) : Statement (.pcjrRd w addr) := by
  cases w
  · exact of_row 0x0D00#16 0xFF04#16 0x0D00#16 rfl rfl (by decide)
  · exact of_row 0x0D01#16 0xFF04#16 0x0D00#16 rfl rfl (by decide)
  · exact of_row 0x0D02#16 0xFF04#16 0x0D00#16 rfl rfl (by decide)
theorem pcjrWr (w : Width) (addr data : Word) : Statement (.pcjrWr w addr data) := by
  cases w
  · exact of_row 0x0D04#16 0xFF04#16 0x0D04#16 rfl rfl (by decide)
  · exact of_row 0x0D05#16 0xFF04#16 0x0D04#16 rfl rfl (by decide)
  · exact of_row 0x0D06#16 0xFF04#16 0x0D04#16 rfl rfl (by decide)
theorem amstradRd (w : Width) (addr : Word) : Statement (.amstradRd w addr) := by
  cases w
  · exact of_row 0x0E00#16 0xFF04#16 0x0E00#16 rfl rfl (by decide)
  · exact of_row 0x0E01#16 0xFF04#16 0x0E00#16 rfl rfl (by decide)
  · exact of_row 0x0E02#16 0xFF04#16 0x0E00#16 rfl rfl (by decide)
theorem amstradWr (w : Width) (addr data : Word) : Statement (.amstradWr w addr data) := by
  cases w
  · exact of_row 0x0E04#16 0xFF04#16 0x0E04#16 rfl rfl (by decide)
  · exact of_row 0x0E05#16 0xFF04#16 0x0E04#16 rfl rfl (by decide)
  · exact of_row 0x0E06#16 0xFF04#16 0x0E04#16 rfl rfl (by decide)
theorem pc98MswRd (n : PortWidth) (addr : Word) : Statement (.pc98MswRd n addr) :=
  of_row 0xA007#16 0xF017#16 0xA007#16 rfl rfl (by decide)
theorem pc98MswWr (n : PortWidth) (addr : Word) (v : Half) : Statement (.pc98MswWr n addr v) :=
  of_row 0xA017#16 0xF017#16 0xA017#16 rfl rfl (by decide)
theorem pc98CharRd (n : PortWidth) (addr : Word) : Statement (.pc98CharRd n addr) :=
  of_row 0xA000#16 0xF017#16 0xA000#16 rfl rfl (by decide)
theorem pc98CharWr (n : PortWidth) (addr : Word) (v : Half) : Statement (.pc98CharWr n addr v) :=
  of_row 0xA010#16 0xF017#16 0xA010#16 rfl rfl (by decide)
theorem pc98AttrRd (n : PortWidth) (addr : Word) : Statement (.pc98AttrRd n addr) :=
  of_row 0xA001#16 0xF017#16 0xA001#16 rfl rfl (by decide)
theorem pc98AttrWr (n : PortWidth) (addr : Word) (v : Half) : Statement (.pc98AttrWr n addr v) :=
  of_row 0xA011#16 0xF017#16 0xA011#16 rfl rfl (by decide)
theorem pc98UnknownRd (n : PortWidth) (addr : Word) : Statement (.pc98UnknownRd n addr) :=
  of_row 0xA002#16 0xF017#16 0xA002#16 rfl rfl (by decide)
theorem pc98UnknownWr (n : PortWidth) (addr : Word) (v : Half) : Statement (.pc98UnknownWr n addr v) :=
  of_row 0xA012#16 0xF017#16 0xA012#16 rfl rfl (by decide)
theorem pc98AbsentRd (n : PortWidth) (addr : Word) : Statement (.pc98AbsentRd n addr) :=
  of_row 0xA003#16 0xF017#16 0xA003#16 rfl rfl (by decide)
theorem pc98AbsentWr (n : PortWidth) (addr : Word) (v : Half) : Statement (.pc98AbsentWr n addr v) :=
  of_row 0xA013#16 0xF017#16 0xA013#16 rfl rfl (by decide)
theorem pc98GraphicsRd (n : PortWidth) (addr : Word) : Statement (.pc98GraphicsRd n addr) :=
  of_row 0xA004#16 0xF017#16 0xA004#16 rfl rfl (by decide)
theorem pc98GraphicsWr (n : PortWidth) (addr : Word) (v : Half) : Statement (.pc98GraphicsWr n addr v) :=
  of_row 0xA014#16 0xF017#16 0xA014#16 rfl rfl (by decide)
theorem vopPassRd (mode : BitVec 3) (n : PortWidth) (off : BitVec 18) : Statement (.vopPassRd mode n off) :=
  of_row (0x500#12 ++ (0#1 ++ mode)) 0xF018#16 0x5000#16 rfl rfl (by revert mode; decide)
theorem vopPassWr (mode : BitVec 3) (n : PortWidth) (off : BitVec 18) (v : Half) : Statement (.vopPassWr mode n off v) :=
  of_row (0x501#12 ++ (0#1 ++ mode)) 0xF018#16 0x5010#16 rfl rfl (by revert mode; decide)
theorem vopTileCopyRd (mode : BitVec 1) (n : PortWidth) (off : BitVec 18) : Statement (.vopTileCopyRd mode n off) :=
  of_row (0x500#12 ++ (0b100#3 ++ mode)) 0xF01E#16 0x5008#16 rfl rfl (by revert mode; decide)
theorem vopTileCopyWr (mode : BitVec 1) (n : PortWidth) (off : BitVec 18) (v : Half) : Statement (.vopTileCopyWr mode n off v) :=
  of_row (0x501#12 ++ (0b100#3 ++ mode)) 0xF01E#16 0x5018#16 rfl rfl (by revert mode; decide)
theorem vopTileMaskRd (mode : BitVec 1) (n : PortWidth) (off : BitVec 18) : Statement (.vopTileMaskRd mode n off) :=
  of_row (0x500#12 ++ (0b110#3 ++ mode)) 0xF01E#16 0x500C#16 rfl rfl (by revert mode; decide)
theorem vopTileMaskWr (mode : BitVec 1) (n : PortWidth) (off : BitVec 18) (v : Half) : Statement (.vopTileMaskWr mode n off v) :=
  of_row (0x501#12 ++ (0b110#3 ++ mode)) 0xF01E#16 0x501C#16 rfl rfl (by revert mode; decide)
theorem vopEgcRd (mode : BitVec 2) (n : PortWidth) (off : BitVec 18) : Statement (.vopEgcRd mode n off) :=
  of_row (0x500#12 ++ ((1#1 ++ mode.extractLsb' 1 1) ++ (1#1 ++ mode.extractLsb' 0 1))) 0xF01A#16 0x500A#16 rfl rfl (by revert mode; decide)
theorem vopEgcWr (mode : BitVec 2) (n : PortWidth) (off : BitVec 18) (v : Half) : Statement (.vopEgcWr mode n off v) :=
  of_row (0x501#12 ++ ((1#1 ++ mode.extractLsb' 1 1) ++ (1#1 ++ mode.extractLsb' 0 1))) 0xF01A#16 0x501A#16 rfl rfl (by revert mode; decide)
theorem shReinit : Statement .shReinit :=
  of_row 0xC000#16 0xF007#16 0xC000#16 rfl rfl (by decide)
theorem shIn8 (q0 q1 q2 q3 : Byte) (odd : Bool) : Statement (.shIn8 q0 q1 q2 q3 odd) :=
  of_row 0xC001#16 0xF007#16 0xC001#16 rfl rfl (by decide)
theorem shIn16 (q0 q1 q2 q3 : Half) : Statement (.shIn16 q0 q1 q2 q3) :=
  of_row 0xC002#16 0xF007#16 0xC002#16 rfl rfl (by decide)
theorem shOut8 (lane rec : Bool) : Statement (.shOut8 lane rec) :=
  of_row 0xC003#16 0xF007#16 0xC003#16 rfl rfl (by decide)
theorem shOut16 : Statement .shOut16 :=
  of_row 0xC004#16 0xF007#16 0xC004#16 rfl rfl (by decide)
theorem shDmask : Statement .shDmask :=
  of_row 0xC005#16 0xF007#16 0xC005#16 rfl rfl (by decide)
theorem egcLs0 (a : BitVec 15) (n : PortWidth) (val : Half) : Statement (.egcLs0 a n val) :=
  of_row 0x7000#16 0xF003#16 0x7000#16 rfl rfl (by decide)
theorem egcLs1 (a : BitVec 15) (n : PortWidth) (val : Half) : Statement (.egcLs1 a n val) :=
  of_row 0x7001#16 0xF003#16 0x7001#16 rfl rfl (by decide)
theorem egcLs2 (a : BitVec 15) (n : PortWidth) (val : Half) : Statement (.egcLs2 a n val) :=
  of_row 0x7002#16 0xF003#16 0x7002#16 rfl rfl (by decide)
theorem egcLs3 (a : BitVec 15) (n : PortWidth) (val : Half) : Statement (.egcLs3 a n val) :=
  of_row 0x7003#16 0xF003#16 0x7003#16 rfl rfl (by decide)
theorem egcFgc0 : Statement .egcFgc0 :=
  of_row 0x8000#16 0xF003#16 0x8000#16 rfl rfl (by decide)
theorem egcFgc1 : Statement .egcFgc1 :=
  of_row 0x8001#16 0xF003#16 0x8001#16 rfl rfl (by decide)
theorem egcFgc2 : Statement .egcFgc2 :=
  of_row 0x8002#16 0xF003#16 0x8002#16 rfl rfl (by decide)
theorem egcFgc3 : Statement .egcFgc3 :=
  of_row 0x8003#16 0xF003#16 0x8003#16 rfl rfl (by decide)
theorem egcRlNone : Statement .egcRlNone :=
  of_row 0x9000#16 0xF003#16 0x9000#16 rfl rfl (by decide)
theorem egcRlRead (both : Bool) (a : BitVec 15) (n : PortWidth) : Statement (.egcRlRead both a n) := by
  cases both
  · exact of_row 0x9001#16 0xF001#16 0x9001#16 rfl rfl (by decide)
  · exact of_row 0x9003#16 0xF001#16 0x9001#16 rfl rfl (by decide)
theorem egcRlWrite (a : BitVec 15) (n : PortWidth) : Statement (.egcRlWrite a n) :=
  of_row 0x9002#16 0xF002#16 0x9002#16 rfl rfl (by decide)
theorem egcropC0 (a : BitVec 15) : Statement (.egcropC0 a) :=
  of_row 0x60C0#16 0xF0FF#16 0x60C0#16 rfl rfl (by decide)
theorem egcropF0 (a : BitVec 15) : Statement (.egcropF0 a) :=
  of_row 0x60F0#16 0xF0FF#16 0x60F0#16 rfl rfl (by decide)
theorem egcropFC (a : BitVec 15) : Statement (.egcropFC a) :=
  of_row 0x60FC#16 0xF0FF#16 0x60FC#16 rfl rfl (by decide)
theorem egcrop0C (a : BitVec 15) : Statement (.egcrop0C a) :=
  of_row 0x600C#16 0xF0FF#16 0x600C#16 rfl rfl (by decide)
theorem egcropPat (code : Byte) (a : BitVec 15) : Statement (.egcropPat code a) :=
  of_row (0x60#8 ++ code) 0xF0FF#16 (0x60#8 ++ code) rfl rfl (by revert code; decide)
theorem egcropStub (code : Byte) (a : BitVec 15) : Statement (.egcropStub code a) :=
  of_row (0x60#8 ++ code) 0xF000#16 0x6000#16 rfl rfl (by revert code; decide)
theorem dispUnmapped : Statement .dispUnmapped :=
  of_row 0xD000#16 0xF00F#16 0xD000#16 rfl rfl (by decide)
theorem dispUnchained : Statement .dispUnchained :=
  of_row 0xD001#16 0xF00F#16 0xD001#16 rfl rfl (by decide)
theorem dispChainedEga : Statement .dispChainedEga :=
  of_row 0xD002#16 0xF00F#16 0xD002#16 rfl rfl (by decide)
theorem dispChainedVga : Statement .dispChainedVga :=
  of_row 0xD003#16 0xF00F#16 0xD003#16 rfl rfl (by decide)
theorem dispChainedVgaSlow : Statement .dispChainedVgaSlow :=
  of_row 0xD004#16 0xF00F#16 0xD004#16 rfl rfl (by decide)
theorem dispChainedVgaEt4k : Statement .dispChainedVgaEt4k :=
  of_row 0xD005#16 0xF00F#16 0xD005#16 rfl rfl (by decide)
theorem dispChainedVgaEt4kSlow : Statement .dispChainedVgaEt4kSlow :=
  of_row 0xD006#16 0xF00F#16 0xD006#16 rfl rfl (by decide)
theorem dispLinear : Statement .dispLinear :=
  of_row 0xD007#16 0xF00F#16 0xD007#16 rfl rfl (by decide)
theorem dispPc98 : Statement .dispPc98 :=
  of_row 0xD008#16 0xF00F#16 0xD008#16 rfl rfl (by decide)
theorem dispText : Statement .dispText :=
  of_row 0xD009#16 0xF00F#16 0xD009#16 rfl rfl (by decide)
theorem dispCgaSnowText : Statement .dispCgaSnowText :=
  of_row 0xD00A#16 0xF00F#16 0xD00A#16 rfl rfl (by decide)
theorem dispHercules : Statement .dispHercules :=
  of_row 0xD00B#16 0xF00F#16 0xD00B#16 rfl rfl (by decide)
theorem dispTandy : Statement .dispTandy :=
  of_row 0xD00C#16 0xF00F#16 0xD00C#16 rfl rfl (by decide)
theorem dispPcjr : Statement .dispPcjr :=
  of_row 0xD00D#16 0xF00F#16 0xD00D#16 rfl rfl (by decide)
theorem dispAmstrad : Statement .dispAmstrad :=
  of_row 0xD00E#16 0xF00F#16 0xD00E#16 rfl rfl (by decide)
theorem winsel0 (h : Tag) : Statement (.winsel0 h) :=
  of_row 0x4000#16 0xF003#16 0x4000#16 rfl rfl (by decide)
theorem winsel1 (h : Tag) : Statement (.winsel1 h) :=
  of_row 0x4001#16 0xF003#16 0x4001#16 rfl rfl (by decide)
theorem winsel2 (h : Tag) : Statement (.winsel2 h) :=
  of_row 0x4002#16 0xF003#16 0x4002#16 rfl rfl (by decide)
theorem winsel3 (h : Tag) : Statement (.winsel3 h) :=
  of_row 0x4003#16 0xF003#16 0x4003#16 rfl rfl (by decide)

end Sys2Proof.Laws.SelectorRow
end

