-- ==== Sys2Proof/Tests/Slice0.lean ====
section
/-! SUPPORT. Tests: refusals of ill-formed terms, words written out from the encodings of R101 and R105, vectors of
95_test_vectors.md one step each, and for every statement with hypotheses a witness that meets them. -/

set_option maxRecDepth 20000

namespace Sys2Proof.Tests

open Machine

/-! ### Small states -/

/-- A frame's bits: selector word, first and second operand (R105, log entry 2). -/
def bits (sel x y : Nat) : Nat := sel + x * 2 ^ 16 + y * 2 ^ 48

/-- What the decoder reads from a whole frame. -/
def dec (sel x y : Nat) : Option Instr := decodeTableWord 80 (bits sel x y)

/-- What the decoder reads under a pattern code. -/
def decPat (c : Byte) (sel x y : Nat) : Option Instr := (decode (some c) (tableBytes 80 (bits sel x y))).toOption

/-- The next state of an outcome, where there is one. -/
def nextOf (r : Host.Outcome State Fault Refusal) : Option State :=
  match r with
  | .next t => some t
  | .fault _ => none
  | .refused _ => none

/-- One field after one instruction. -/
def after {α : Type} (i : Instr) (s : State) (f : State → α) : Option α := (nextOf (exec i s)).map f

/-- The machine of the generic vectors: an EGA adapter after reset, VMEMSIZE 0x40000. -/
def ega : State := { State.reset with plat := { Config.platform with vmemBits := 18 } }

/-- `s` with its planar configuration replaced. -/
def withPlanar (s : State) (c : PlanarConfig) : State := { s with cfg := { s.cfg with planar := c } }

/-- `s` with its EGC registers replaced. -/
def withEgc (s : State) (c : EgcConfig) : State := { s with cfg := { s.cfg with egc := c } }

/-- `s` with its PC-98 registers replaced. -/
def withPc (s : State) (c : Pc98Config) : State := { s with cfg := { s.cfg with pc98 := c } }

/-- `s` with one handler bound to the pages from 0xA0 on. -/
def bound (s : State) (h : Tag) : State := { s with binding := { s.binding with bound := [⟨0xA0, 32, h⟩] } }

/-- The machine of the PC-98 vectors after reset: VMEMSIZE 0x80000, pages 0xA0..0xBF and 0xE0..0xE7 bound. -/
def pc : State :=
  { State.reset with
    plat := { Config.platform with machine := .pc98 }
    binding := { State.reset.binding with bound := [⟨0xA0, 32, .pc98⟩, ⟨0xE0, 8, .pc98⟩] } }

/-- `pc` with the plane words of one in-plane offset. -/
def planes4 (s : State) (a : Nat) (q : Quad) : State :=
  planes.foldl (fun t p => t.pwrite (t.planeAddr p a) .word (q.get p)) s

/-- `s` with the Shifter reinitialised for a direction, a length and two phases. -/
def shifter (s : State) (d : Bool) (len : BitVec 12) (src dst : BitVec 4) : State :=
  (withEgc s { s.cfg.egc with shiftDescend := d, shiftLength := len, shiftSrcbit := src, shiftDstbit := dst }).reinit

/-! ### WellFormed refuses -/

theorem test_wf_wmUnsup : Instr.wf none (.wmUnsup 3#8 0#8) = false ∧ Instr.wf none (.wmUnsup 4#8 0#8) = true := by decide

theorem test_wf_egcropStub_named : ∀ c ∈ namedRopCodes, Instr.wf none (.egcropStub c 0#15) = false := by decide

theorem test_wf_egcropStub_pattern :
    Instr.wf (some 0x5A#8) (.egcropStub 0x5A#8 0#15) = false ∧ Instr.wf none (.egcropStub 0x5A#8 0#15) = true := by decide

theorem test_wf_egcropPat :
    Instr.wf none (.egcropPat 0x5A#8 0#15) = false ∧ Instr.wf (some 0x5B#8) (.egcropPat 0x5A#8 0#15) = false ∧
    Instr.wf (some 0xC0#8) (.egcropPat 0xC0#8 0#15) = false ∧ Instr.wf (some 0x5A#8) (.egcropPat 0x5A#8 0#15) = true := by
  decide

theorem test_wf_platform :
    Platform.wf Config.platform = true ∧ Platform.wf { Config.platform with vmemBits := 1 } = false ∧
    Platform.wf { Config.platform with vmemBits := 33 } = false ∧
    Platform.wf { Config.platform with machine := .pc98, vmemBits := 18 } = false ∧
    Platform.wf { Config.platform with readDelay := 3 } = false ∧
    Platform.wf { Config.platform with patCode := some 0xFC#8 } = false := by decide

/-- R8, R197: an EGAVGA machine whose display mode selects the PC-98 decoder needs 0x80000 bytes, in the other modes it
does not. -/
theorem test_wf_allows :
    let small := { Config.platform with vmemBits := 18 }
    let c := ExtConfig.reset
    small.allows c = true ∧ small.allows { c with disp := { c.disp with displayMode := .pc98 } } = false ∧
    Config.platform.allows { c with disp := { c.disp with displayMode := .pc98 } } = true := by decide

/-! ### Decoding: words written out from R101 and R105, operands in the two words that follow -/

/-- Format 11: the op bytes of R101 and R102. -/
theorem test_decode_records :
    dec 0xB000 0xA0007 0 = some (.rd8 0xA0007#32) ∧
    dec 0xB001 0xA0007 0 = some (.rd16 0xA0007#32) ∧
    dec 0xB002 0xA0007 0 = some (.rd32 0xA0007#32) ∧
    dec 0xB004 0xA0007 0xDD = some (.wr8 0xA0007#32 0xDD#8) ∧
    dec 0xB005 0xA0007 0xBBAA = some (.wr16 0xA0007#32 0xBBAA#16) ∧
    dec 0xB006 0xA0007 0x44332211 = some (.wr32 0xA0007#32 0x44332211#32) ∧
    dec 0xB080 0x26 0x5C = some (.cfg (.msw 2) 0x5C#32) ∧
    dec 0xB081 0 0 = some .dispatch ∧
    dec 0xB082 0 0 = some .reset ∧
    dec 0xB083 0 0 = some .egcReinit ∧
    dec 0xB084 2 0xF0 = some (.tileLoad 2 0xF0#16) := by decide

/-- Formats 3, 1 and 2: ROPSEL, WMODE, RMODE. -/
theorem test_decode_rop_wm_rm :
    dec 0x3000 1 2 = some (.ropNone 1#32 2#32) ∧
    dec 0x3001 1 2 = some (.ropAnd 1#32 2#32) ∧
    dec 0x3002 1 2 = some (.ropOr 1#32 2#32) ∧
    dec 0x3003 1 2 = some (.ropXor 1#32 2#32) ∧
    dec 0x1000 0xAA 0 = some (.wm0 0xAA#8) ∧
    dec 0x1001 0xAA 0 = some (.wm1 0xAA#8) ∧
    dec 0x1002 0xAA 0 = some (.wm2 0xAA#8) ∧
    dec 0x1003 0xAA 0 = some (.wm3 0xAA#8) ∧
    dec 0x1004 0xAA 0 = some (.wmUnsup 4#8 0xAA#8) ∧
    dec 0x10FF 0xAA 0 = some (.wmUnsup 0xFF#8 0xAA#8) ∧
    dec 0x2000 0x20 7 = some (.rm0 0x20#32 true 3) ∧
    dec 0x2001 0x20 2 = some (.rm1 0x20#32 false 2) := by decide

/-- Format 0: tag in bits 11:8, direction in bit 2, width code in bits 1:0. -/
theorem test_decode_bus_read :
    dec 0x000 0xA0005 0 = some (.unmappedRd .byte 0xA0005#32) ∧
    dec 0x101 0xA0005 0 = some (.unchainedRd .word 0xA0005#32) ∧
    dec 0x202 0xA0005 0 = some (.chainedEgaRd .dword 0xA0005#32) ∧
    dec 0x300 0xA0005 0 = some (.chainedVgaRd .byte 0xA0005#32) ∧
    dec 0x401 0xA0005 0 = some (.chainedVgaSlowRd .word 0xA0005#32) ∧
    dec 0x502 0xA0005 0 = some (.chainedVgaEt4kRd .dword 0xA0005#32) ∧
    dec 0x600 0xA0005 0 = some (.chainedVgaEt4kSlowRd .byte 0xA0005#32) ∧
    dec 0x701 0xA0005 0 = some (.linearRd .word 0xA0005#32) ∧
    dec 0x802 0xA0005 0 = some (.pc98Rd .dword 0xA0005#32) ∧
    dec 0x900 0xA0005 0 = some (.textRd .byte 0xA0005#32) ∧
    dec 0xA01 0xA0005 0 = some (.cgaSnowTextRd .word 0xA0005#32) ∧
    dec 0xB02 0xA0005 0 = some (.herculesRd .dword 0xA0005#32) ∧
    dec 0xC00 0xA0005 0 = some (.tandyRd .byte 0xA0005#32) ∧
    dec 0xD01 0xA0005 0 = some (.pcjrRd .word 0xA0005#32) ∧
    dec 0xE02 0xA0005 0 = some (.amstradRd .dword 0xA0005#32) := by decide

/-- Format 0, writes. -/
theorem test_decode_bus_write :
    dec 0x005 0xA0005 0x1234 = some (.unmappedWr .word 0xA0005#32 0x1234#32) ∧
    dec 0x106 0xA0005 0x1234 = some (.unchainedWr .dword 0xA0005#32 0x1234#32) ∧
    dec 0x204 0xA0005 0x1234 = some (.chainedEgaWr .byte 0xA0005#32 0x1234#32) ∧
    dec 0x305 0xA0005 0x1234 = some (.chainedVgaWr .word 0xA0005#32 0x1234#32) ∧
    dec 0x406 0xA0005 0x1234 = some (.chainedVgaSlowWr .dword 0xA0005#32 0x1234#32) ∧
    dec 0x504 0xA0005 0x1234 = some (.chainedVgaEt4kWr .byte 0xA0005#32 0x1234#32) ∧
    dec 0x605 0xA0005 0x1234 = some (.chainedVgaEt4kSlowWr .word 0xA0005#32 0x1234#32) ∧
    dec 0x706 0xA0005 0x1234 = some (.linearWr .dword 0xA0005#32 0x1234#32) ∧
    dec 0x804 0xA0005 0x1234 = some (.pc98Wr .byte 0xA0005#32 0x1234#32) ∧
    dec 0x905 0xA0005 0x1234 = some (.textWr .word 0xA0005#32 0x1234#32) ∧
    dec 0xA06 0xA0005 0x1234 = some (.cgaSnowTextWr .dword 0xA0005#32 0x1234#32) ∧
    dec 0xB04 0xA0005 0x1234 = some (.herculesWr .byte 0xA0005#32 0x1234#32) ∧
    dec 0xC05 0xA0005 0x1234 = some (.tandyWr .word 0xA0005#32 0x1234#32) ∧
    dec 0xD06 0xA0005 0x1234 = some (.pcjrWr .dword 0xA0005#32 0x1234#32) ∧
    dec 0xE04 0xA0005 0x1234 = some (.amstradWr .byte 0xA0005#32 0x1234#32) := by decide

/-- The reserved tag 15 and the reserved width code 3 are refused (R101, R104). -/
theorem test_decode_bus_reserved :
    dec 0x0F00 0 0 = none ∧ dec 0x0103 0 0 = none ∧ dec 0x0107 0 0 = none ∧ dec 0xD00F 0 0 = none ∧ dec 0xA005 0 0 = none ∧
    dec 0xC006 0 0 = none ∧ dec 0xE000 0 0 = none ∧ dec 0xB003 0 0 = none ∧ dec 0xB085 0 0 = none := by decide

/-- Format 10: region code in bits 2:0, direction in bit 4; the width in bit 16 of the second operand. -/
theorem test_decode_region :
    dec 0xA000 0xA1000 0x10000 = some (.pc98CharRd .word 0xA1000#32) ∧
    dec 0xA001 0xA1000 0x10000 = some (.pc98AttrRd .word 0xA1000#32) ∧
    dec 0xA002 0xA1000 0x10000 = some (.pc98UnknownRd .word 0xA1000#32) ∧
    dec 0xA003 0xA1000 0x10000 = some (.pc98AbsentRd .word 0xA1000#32) ∧
    dec 0xA004 0xA1000 0x10000 = some (.pc98GraphicsRd .word 0xA1000#32) ∧
    dec 0xA007 0xA1000 0x10000 = some (.pc98MswRd .word 0xA1000#32) ∧
    dec 0xA010 0xA1001 0x5A = some (.pc98CharWr .byte 0xA1001#32 0x5A#16) ∧
    dec 0xA011 0xA1001 0x5A = some (.pc98AttrWr .byte 0xA1001#32 0x5A#16) ∧
    dec 0xA012 0xA1001 0x5A = some (.pc98UnknownWr .byte 0xA1001#32 0x5A#16) ∧
    dec 0xA013 0xA1001 0x5A = some (.pc98AbsentWr .byte 0xA1001#32 0x5A#16) ∧
    dec 0xA014 0xA1001 0x5A = some (.pc98GraphicsWr .byte 0xA1001#32 0x5A#16) ∧
    dec 0xA017 0xA1001 0x5A = some (.pc98MswWr .byte 0xA1001#32 0x5A#16) := by decide

/-- Format 5: direction in bit 4, `vop_mode` in bits 3:0 (R112). -/
theorem test_decode_vop :
    dec 0x5003 0x8100 0x10000 = some (.vopPassRd 3#3 .word 0x8100#18) ∧
    dec 0x5009 0x8100 0x10000 = some (.vopTileCopyRd 1#1 .word 0x8100#18) ∧
    dec 0x500C 0x8100 0 = some (.vopTileMaskRd 0#1 .byte 0x8100#18) ∧
    dec 0x500A 0x8100 0 = some (.vopEgcRd 0#2 .byte 0x8100#18) ∧
    dec 0x500B 0x8100 0 = some (.vopEgcRd 1#2 .byte 0x8100#18) ∧
    dec 0x500E 0x8100 0 = some (.vopEgcRd 2#2 .byte 0x8100#18) ∧
    dec 0x500F 0x8100 0 = some (.vopEgcRd 3#2 .byte 0x8100#18) ∧
    dec 0x5017 0x8100 0x11234 = some (.vopPassWr 7#3 .word 0x8100#18 0x1234#16) ∧
    dec 0x5018 0x8100 0x11234 = some (.vopTileCopyWr 0#1 .word 0x8100#18 0x1234#16) ∧
    dec 0x501D 0x8100 0x11234 = some (.vopTileMaskWr 1#1 .word 0x8100#18 0x1234#16) ∧
    dec 0x501B 0x8100 0x11234 = some (.vopEgcWr 1#2 .word 0x8100#18 0x1234#16) := by decide

/-- Format 12: the Shifter operation in bits 2:0. -/
theorem test_decode_shift :
    dec 0xC000 0 0 = some .shReinit ∧
    dec 0xC001 0x44332211 1 = some (.shIn8 0x11#8 0x22#8 0x33#8 0x44#8 true) ∧
    dec 0xC002 0x22221111 0x44443333 = some (.shIn16 0x1111#16 0x2222#16 0x3333#16 0x4444#16) ∧
    dec 0xC003 1 0 = some (.shOut8 true false) ∧
    dec 0xC003 2 0 = some (.shOut8 false true) ∧
    dec 0xC004 0 0 = some .shOut16 ∧
    dec 0xC005 0 0 = some .shDmask := by decide

/-- Formats 7, 8 and 9: LSRC, FGC, REGLOAD. -/
theorem test_decode_egc :
    dec 0x7000 0x300 0x1ABCD = some (.egcLs0 0x300#15 .word 0xABCD#16) ∧
    dec 0x7001 0x300 0x1ABCD = some (.egcLs1 0x300#15 .word 0xABCD#16) ∧
    dec 0x7002 0x301 0xCD = some (.egcLs2 0x301#15 .byte 0xCD#16) ∧
    dec 0x7003 0x300 0x1ABCD = some (.egcLs3 0x300#15 .word 0xABCD#16) ∧
    dec 0x8000 0 0 = some .egcFgc0 ∧
    dec 0x8001 0 0 = some .egcFgc1 ∧
    dec 0x8002 0 0 = some .egcFgc2 ∧
    dec 0x8003 0 0 = some .egcFgc3 ∧
    dec 0x9000 0 0 = some .egcRlNone ∧
    dec 0x9001 0x301 0 = some (.egcRlRead false 0x301#15 .byte) ∧
    dec 0x9002 0x300 0x10000 = some (.egcRlWrite 0x300#15 .word) ∧
    dec 0x9003 0x301 0 = some (.egcRlRead true 0x301#15 .byte) := by decide

/-- Format 6: `egc_rop` in bits 7:0; the row `EGCROP.PAT` only under the parameter. -/
theorem test_decode_egcrop :
    dec 0x60C0 0x301 0 = some (.egcropC0 0x301#15) ∧
    dec 0x60F0 0x301 0 = some (.egcropF0 0x301#15) ∧
    dec 0x60FC 0x301 0 = some (.egcropFC 0x301#15) ∧
    dec 0x600C 0x301 0 = some (.egcrop0C 0x301#15) ∧
    dec 0x605A 0x301 0 = some (.egcropStub 0x5A#8 0x301#15) ∧
    decPat 0x5A#8 0x605A 0x301 0 = some (.egcropPat 0x5A#8 0x301#15) ∧
    decPat 0x5A#8 0x605B 0x301 0 = some (.egcropStub 0x5B#8 0x301#15) := by decide

/-- Format 13: the tag in bits 3:0. -/
theorem test_decode_disp :
    dec 0xD000 0 0 = some .dispUnmapped ∧
    dec 0xD001 0 0 = some .dispUnchained ∧
    dec 0xD002 0 0 = some .dispChainedEga ∧
    dec 0xD003 0 0 = some .dispChainedVga ∧
    dec 0xD004 0 0 = some .dispChainedVgaSlow ∧
    dec 0xD005 0 0 = some .dispChainedVgaEt4k ∧
    dec 0xD006 0 0 = some .dispChainedVgaEt4kSlow ∧
    dec 0xD007 0 0 = some .dispLinear ∧
    dec 0xD008 0 0 = some .dispPc98 ∧
    dec 0xD009 0 0 = some .dispText ∧
    dec 0xD00A 0 0 = some .dispCgaSnowText ∧
    dec 0xD00B 0 0 = some .dispHercules ∧
    dec 0xD00C 0 0 = some .dispTandy ∧
    dec 0xD00D 0 0 = some .dispPcjr ∧
    dec 0xD00E 0 0 = some .dispAmstrad := by decide

/-- Format 4: the window in bits 1:0. -/
theorem test_decode_winsel :
    dec 0x4000 7 0 = some (.winsel0 .linear) ∧
    dec 0x4001 1 0 = some (.winsel1 .unchained) ∧
    dec 0x4002 0 0 = some (.winsel2 .unmapped) ∧
    dec 0x4003 9 0 = some (.winsel3 .text) := by decide

/-- Program P6, step 7, and P1, step 22, as records. -/
theorem test_decode_record :
    (decodeRecord [0x04#8, 0x00#8, 0x00#8, 0x0A#8, 0x00#8, 0x22#8, 0x00#8, 0x00#8, 0x00#8]).toOption =
      some (.wr8 0xA0000#32 0x22#8) ∧
    (decodeRecord [0x80#8, 0x09#8, 0x00#8, 0x00#8, 0x00#8, 0x0A#8, 0x00#8, 0x00#8, 0x00#8]).toOption =
      some (.cfg .colorDontCare 0x0A#32) := by decide

/-- The frame placed by the host is the next thing the machine runs. -/
theorem test_withFetchWord :
    (nextOf (step ((State.reset.setTile ⟨1#16, 2#16, 3#16, 4#16⟩).withFetchWord 16 0xB084))).map (·.tile.p0) =
      some 0x0000#16 := by decide

/-! ### Vectors of 95_test_vectors.md, one step each -/

/-- T3: the four operations against one Latch. -/
theorem test_rasterop_literals :
    let s := ega.setLatch 0x12345678#32
    after (.ropNone 0x0F0F0F0F#32 0xFFFFFFFF#32) s (·.out) = some (.word 0x0F0F0F0F#32) ∧
    after (.ropAnd 0x0F0F0F0F#32 0xFFFFFFFF#32) s (·.out) = some (.word 0x02040608#32) ∧
    after (.ropOr 0x0F0F0F0F#32 0xFFFFFFFF#32) s (·.out) = some (.word 0x1F3F5F7F#32) ∧
    after (.ropXor 0x0F0F0F0F#32 0xFFFFFFFF#32) s (·.out) = some (.word 0x1D3B5977#32) := by decide

/-- Section 2.2, second row. -/
theorem test_rasterop_masked :
    let s := ega.setLatch 0x12345678#32
    after (.ropNone 0x0F0F0F0F#32 0x00FF00FF#32) s (·.out) = some (.word 0x120F560F#32) ∧
    after (.ropAnd 0x0F0F0F0F#32 0x00FF00FF#32) s (·.out) = some (.word 0x12045608#32) ∧
    after (.ropOr 0x0F0F0F0F#32 0x00FF00FF#32) s (·.out) = some (.word 0x123F567F#32) ∧
    after (.ropXor 0x0F0F0F0F#32 0x00FF00FF#32) s (·.out) = some (.word 0x123B5677#32) := by decide

/-- M5. -/
theorem test_wm0_set_reset :
    let s := ega.setLatch 0x12345678#32
    let c := { s.cfg.planar with enableSetReset := 0xF#4, setReset := 0x5#4, bitMask := 0xF0#8 }
    after (.wm0 0x55#8) (withPlanar s c) (·.out) = some (.word 0x02F406F8#32) := by decide

/-- M10. -/
theorem test_wm1_latch :
    after (.wm1 0xFF#8) (withPlanar (ega.setLatch 0xDEADBEEF#32) { ega.cfg.planar with bitMask := 0#8, rasterOp := 3#2 })
      (·.out) = some (.word 0xDEADBEEF#32) := by decide

/-- M12. -/
theorem test_wm2_nibble :
    after (.wm2 0xF5#8) (withPlanar (ega.setLatch 0x12345678#32) { ega.cfg.planar with bitMask := 0x0F#8 }) (·.out) =
      some (.word 0x103F507F#32) := by decide

/-- M14. -/
theorem test_wm3_rotate :
    let c := { ega.cfg.planar with dataRotate := 4#3, setReset := 6#4, bitMask := 0xF0#8 }
    after (.wm3 0x3C#8) (withPlanar (ega.setLatch 0x12345678#32) c) (·.out) = some (.word 0x12F4D638#32) :=
  by decide

/-- M18: zero, one mark; a second time no further mark. -/
theorem test_wmUnsup_logged :
    after (.wmUnsup 4#8 0xFF#8) ega (fun t => (t.out, t.logged)) = some (.word 0#32, [⟨.writeMode, 4#8⟩]) ∧
    after (.wmUnsup 4#8 0xFF#8) (ega.setLogged [⟨.writeMode, 4#8⟩]) (·.logged) = some [⟨.writeMode, 4#8⟩] :=
  by decide

/-- H2b: odd/even, nominal plane 2, odd address: plane 3 of index 0x20. -/
theorem test_rm0_odd_even :
    let s := withPlanar (ega.planarStore 0x20 0x44332211#32) { ega.cfg.planar with oddEven := true }
    after (.rm0 0x21#32 true 2) s (fun t => (t.out, t.latch)) = some (.byte 0x44#8, 0x44332211#32) := by decide

/-- P3, step 19. -/
theorem test_rm1_compare :
    let s := withPlanar (ega.planarStore 4 0xAA3F2211#32)
      { ega.cfg.planar with colorDontCare := 3#4, colorCompare := 2#4 }
    after (.rm1 4#32 false 0) s (fun t => (t.out, t.latch)) = some (.byte 0x22#8, 0xAA3F2211#32) := by decide

/-- H3b: four byte steps, the Latch from the last. -/
theorem test_rd32_unchained :
    let s := (ega.planarStore 0x20 0x44332211#32).planarStore 0x21 0x88776655#32
    after (.rd32 0xA001F#32) s (fun t => (t.out, t.latch)) = some (.word 0x00551100#32, 0#32) := by decide

/-- H5: the disabled planes keep their VRAM byte. -/
theorem test_unchained_write_map_mask :
    after (.unchainedWr .byte 0xA0040#32 0xFF#32) (withPlanar ega { ega.cfg.planar with mapMask := 2#4 })
      (fun t => t.planarRead 0x40) = some 0x0000FF00#32 := by decide

/-- H7: two byte steps at an odd address. -/
theorem test_chainedEga_wide :
    after (.chainedEgaWr .word 0xA0003#32 0xBBAA#32) ega (fun t => (t.vramAt 3, t.vramAt 4)) = some (0xAA#8, 0xBB#8) :=
  by decide

/-- H9a: address 8 is the next group. -/
theorem test_chainedVga_group :
    after (.chainedVgaWr .word 0xA0007#32 0xBBAA#32) ega (fun t => (t.vramAt 0x13, t.vramAt 0x20)) = some (0xAA#8, 0xBB#8) :=
  by decide

/-- P3, step 8. -/
theorem test_chainedVga_read :
    after (.chainedVgaRd .dword 0xA0005#32)
      ((((ega.putByte 0x11 0x22#8).putByte 0x12 0x33#8).putByte 0x13 0xAA#8).putByte 0x20 0xBB#8) (·.out) =
      some (.word 0xBBAA3322#32) := by decide

/-- H10. -/
theorem test_chainedVgaSlow_read :
    after (.chainedVgaSlowRd .byte 0xA0005#32) (ega.planarStore 4 0xAA332211#32) (fun t => (t.out, t.latch)) =
      some (.byte 0x22#8, 0xAA332211#32) := by decide

/-- H11: one lane only. -/
theorem test_chainedVgaSlow_write :
    let s := withPlanar ((ega.planarStore 4 0xAA332211#32).setLatch 0xAA332211#32) { ega.cfg.planar with bitMask := 0x0F#8 }
    after (.chainedVgaSlowWr .byte 0xA0006#32 0xFF#32) s (fun t => t.planarRead 4) = some 0xAA3F2211#32 :=
  by decide

/-- H13. -/
theorem test_et4k_linear :
    after (.chainedVgaEt4kWr .dword 0xA0004#32 0x44332211#32) ega (fun t => t.vword 4) = some 0x44332211#32 :=
  by decide

/-- H14: planar index 1. -/
theorem test_et4kSlow_read :
    after (.chainedVgaEt4kSlowRd .byte 0xA0005#32) (ega.planarStore 1 0x44332211#32) (fun t => (t.out, t.latch)) =
      some (.byte 0x22#8, 0x44332211#32) := by decide

/-- T8: bank 1 of 0x10000. -/
theorem test_linear_bank :
    after (.linearWr .byte 0xA0000#32 0x22#32) (ega.setBinding { ega.binding with bankWriteFull := 0x10000#32 })
      (fun t => t.vramAt 0x10000) = some 0x22#8 := by decide

/-- P6, step 15. -/
theorem test_wr8_unmapped :
    nextOf (exec (.wr8 0xB0000#32 0x44#8) ega) = none := by decide

/-- T6. -/
theorem test_pc98_char :
    after (.wr8 0xA1000#32 0x5A#8) pc (fun t => t.vramAt 0x1000) = some 0x5A#8 ∧
    after (.rd8 0xA1000#32) (pc.putByte 0x1000 0x5A#8) (·.out) = some (.byte 0x5A#8) := by decide

/-- T7 and Q7. -/
theorem test_pc98_attr :
    after (.wr8 0xA2001#32 0x34#8) pc (·.vram) = some [] ∧
    after (.rd8 0xA2001#32) pc (·.out) = some (.byte 0xFF#8) ∧
    after (.wr16 0xA2000#32 0x1234#16) pc (fun t => t.vhalf 0x2000) = some 0xFF34#16 := by decide

/-- Q5: the wrapper splits an odd word. -/
theorem test_pc98_odd_word :
    after (.rd16 0xA0FFF#32) (pc.putByte 0x1000 0x5A#8) (·.out) = some (.half 0x5A00#16) := by decide

/-- Q3: register 1, zero-extended. -/
theorem test_pc98_msw :
    after (.rd16 0xA3FE4#32) (withPc pc { pc.cfg.pc98 with msw := #v[0x10, 0x11, 0x12, 0x13, 0x14, 0x15, 0x16, 0x17] })
      (·.out) = some (.half 0x0011#16) := by decide

/-- Q9. -/
theorem test_pc98_absent :
    after (.rd16 0xA6000#32) pc (·.out) = some (.half 0xFFFF#16) ∧ after (.wr16 0xA6000#32 0x1234#16) pc (·.vram) = some [] :=
  by decide

/-- Q11. -/
theorem test_pc98_overlay :
    after (.wr16 0xE0010#32 0xCAFE#16) pc (fun t => t.vhalf 0x20010) = some 0xCAFE#16 := by decide

/-- Q12. -/
theorem test_vop_access :
    after (.wr8 0xA8000#32 0x42#8) (withPc pc { pc.cfg.pc98 with vopAccess := true }) (fun t => t.vramAt 0x28000) = some 0x42#8 :=
  by decide

/-- V1. -/
theorem test_tile_copy_read :
    let s := planes4 (pc.setTile ⟨0xAAAA#16, 0x5555#16, 0xF0F0#16, 0x0F0F#16⟩) 0x10
      ⟨0xAAAB#16, 0x5555#16, 0xF0F0#16, 0x0F0F#16⟩
    after (.vopTileCopyRd 0#1 .word 0x8010#18) s (·.out) = some (.half 0xFFFE#16) := by decide

/-- V2. -/
theorem test_tile_copy_write :
    let s := withPc (pc.setTile ⟨0x00AA#16, 0x0055#16, 0x00F0#16, 0x000F#16⟩) { pc.cfg.pc98 with chEn := 7#4 }
    after (.vopTileCopyWr 0#1 .word 0x8010#18 0x1234#16) s (fun t => (t.planeQuad 0x10 .word, t.tile)) =
      some (⟨0xAAAA#16, 0x5555#16, 0xF0F0#16, 0x0000#16⟩, ⟨0xAAAA#16, 0x5555#16, 0xF0F0#16, 0x000F#16⟩) :=
  by decide

/-- V4. -/
theorem test_tile_mask_write :
    let s := planes4 (pc.setTile ⟨0x00FF#16, 0#16, 0x00FF#16, 0#16⟩) 0x20 (Quad.const 0x3C3C#16)
    after (.vopTileMaskWr 0#1 .word 0x8020#18 0x0FF0#16) s (fun t => t.planeQuad 0x20 .word) =
      some ⟨0x3FFC#16, 0x300C#16, 0x3FFC#16, 0x300C#16⟩ := by decide

/-- S6: descending, one word per plane. -/
theorem test_shift_in16 :
    after (.shIn16 0xABCD#16 0x1111#16 0x2222#16 0x3333#16) (shifter pc true 15#12 0#4 0#4)
      (fun t => (t.bufGet 498, t.bufGet 499, t.bufGet 510, t.sh.bufi, t.sh.load)) = some (0xCD#8, 0xAB#8, 0x33#8, 497, 16) :=
  by decide

/-- S1, step 1. -/
theorem test_shift_out16 :
    after .shOut16 ((shifter pc false 31#12 0#4 4#4).shiftIn16 ⟨0xABCD#16, 0x5432#16, 0#16, 0xFFFF#16⟩)
      (fun t => (t.egcSrc, t.srcMask, t.sh.remain, t.sh.load)) =
      some (⟨0xDA0C#16, 0x2503#16, 0x0000#16, 0xFF0F#16⟩, 0xFF0F#16, 20, 4) := by decide

/-- S4, step 1: a source phase of 8 or more. -/
theorem test_shift_in8 :
    after (.shIn8 0xCD#8 0xCD#8 0xCD#8 0xCD#8 false) (shifter pc false 7#12 12#4 0#4)
      (fun t => (t.sh.load, t.sh.srcbit, t.sh.bufi, t.srcMask)) = some (0, 4, 1, 0x00FF#16) := by decide

/-- S3, step 1. -/
theorem test_shift_out8 :
    after (.shOut8 false false) ((shifter pc false 15#12 0#4 4#4).shiftIn8 (Quad.const 0xCD#16) false)
      (fun t => (t.egcSrc.p0, t.srcMask, t.sh.remain, t.sh.load)) = some (0x000C#16, 0x000F#16, 12, 4) :=
  by decide

/-- Section 2.10: remaining 4 at phase 2, both directions; 7 at phase 1 descending. -/
theorem test_shift_dmask :
    after .shDmask (pc.setSh { pc.sh with remain := 4, dstbit := 2 }) (·.out) = some (.byte 0x3C#8) ∧
    after .shDmask (pc.setSh { pc.sh with remain := 4, dstbit := 0 }) (·.out) = some (.byte 0xF0#8) ∧
    after .shDmask (pc.setSh { pc.sh with dec := true, remain := 7, dstbit := 1 }) (·.out) = some (.byte 0xFE#8) :=
  by decide

/-- E1. -/
theorem test_egc_write_cpu :
    let s := planes4 (withEgc pc { pc.cfg.egc with mask := 0xFF0F#16 }) 0x300 ⟨0x1111#16, 0x2222#16, 0x3333#16, 0x4444#16⟩
    after (.vopEgcWr 0#2 .word 0x8300#18 0xABCD#16) s (fun t => t.planeQuad 0x300 .word) =
      some ⟨0xAB1D#16, 0xAB2D#16, 0xAB3D#16, 0xAB4D#16⟩ := by decide

/-- E10. -/
theorem test_egc_write_regload :
    let s := planes4 (withEgc pc { pc.cfg.egc with regload := 2#2 }) 0x700 ⟨0x1111#16, 0x2222#16, 0x3333#16, 0x4444#16⟩
    after (.vopEgcWr 0#2 .byte 0x8701#18 0x99#16) s (fun t => (t.tile, t.planeQuad 0x700 .word)) =
      some (⟨0x1100#16, 0x2200#16, 0x3300#16, 0x4400#16⟩, ⟨0x9911#16, 0x9922#16, 0x9933#16, 0x9944#16⟩) :=
  by decide

/-- E8: the raster result shifted four pixels, entry 0xF0. -/
theorem test_egc_ls1 :
    let s := withEgc (shifter pc false 15#12 0#4 4#4) { (shifter pc false 15#12 0#4 4#4).cfg.egc with shiftinput := true }
    after (.egcLs1 0x100#15 .word 0xABCD#16) s (·.out) = some (.egc (Quad.const 0xDA0C#16) 0xFF0F#16) :=
  by decide

/-- E7: no shifter step, the source quad under its mask. -/
theorem test_egc_ls2 :
    let s := ((pc.setEgcSrc (Quad.const 0x1234#16)).setSrcMask 0x0FF0#16)
    after (.egcLs2 0x300#15 .word 0xBEEF#16) s (·.out) = some (.egc (Quad.const 0x1234#16) 0x0FF0#16) :=
  by decide

/-- E12. -/
theorem test_egc_read :
    let q : Quad := ⟨0x00FF#16, 0x0F0F#16, 0x3333#16, 0x5555#16⟩
    after (.vopEgcRd 0#2 .word 0x8200#18) (planes4 pc 0x200 q) (fun t => (t.out, t.egcLast, t.egcSrc, t.srcMask)) =
      some (.half 0x00FF#16, q, q, 0xFFFF#16) := by decide

/-- E17. -/
theorem test_egc_read_compare :
    let s := withEgc (planes4 pc 0 ⟨0x1111#16, 0x2222#16, 0x3333#16, 0x4444#16⟩)
      { pc.cfg.egc with compareLead := true, leadPlane := 1#2 }
    after (.vopEgcRd 0#2 .byte 0x8001#18) s (·.out) = some (.byte 0x22#8) := by decide

/-- Section 2.11: the four named entries. -/
theorem test_rop_entries :
    let s := planes4 (pc.setEgcSrc ⟨0x00FF#16, 0x0F0F#16, 0x3333#16, 0x5555#16⟩) 0 (Quad.const 0x0FF0#16)
    after (.egcropC0 0#15) s (·.out) = some (.quad ⟨0x00F0#16, 0x0F00#16, 0x0330#16, 0x0550#16⟩) ∧
    after (.egcropF0 0#15) s (·.out) = some (.quad ⟨0x00FF#16, 0x0F0F#16, 0x3333#16, 0x5555#16⟩) ∧
    after (.egcropFC 0#15) s (·.out) = some (.quad ⟨0x0FFF#16, 0x0FFF#16, 0x3FF3#16, 0x5FF5#16⟩) ∧
    after (.egcrop0C 0#15) s (·.out) = some (.quad ⟨0x0F00#16, 0x00F0#16, 0x0CC0#16, 0x0AA0#16⟩) := by decide

/-- An instance whose pattern code is `c`, with the start of section 2.11: source 0x00FF, destination 0x0FF0. -/
def patState (c : Byte) : State :=
  planes4 ((({ pc with plat := { pc.plat with patCode := some c } } : State).setEgcSrc (Quad.const 0x00FF#16)).setTile
    ⟨0xFFFF#16, 0#16, 0xFFFF#16, 0#16⟩) 0 (Quad.const 0x0FF0#16)

/-- Section 2.11: codes 0xCA and 0xAC of instances that have them. -/
theorem test_rop_pattern :
    after (.egcropPat 0xCA#8 0#15) (patState 0xCA#8) (·.out) = some (.quad ⟨0xFFF0#16, 0x00F0#16, 0xFFF0#16, 0x00F0#16⟩) ∧
    after (.egcropPat 0xAC#8 0#15) (patState 0xAC#8) (·.out) = some (.quad ⟨0x0FFF#16, 0x0F00#16, 0x0FFF#16, 0x0F00#16⟩) :=
  by decide

/-- T9: the snapshot and one mark. -/
theorem test_rop_stub :
    let s := pc.setEgcLast ⟨0xAAAA#16, 0xBBBB#16, 0xCCCC#16, 0xDDDD#16⟩
    after (.egcropStub 0x33#8 0#15) s (fun t => (t.out, t.logged)) =
      some (.quad ⟨0xAAAA#16, 0xBBBB#16, 0xCCCC#16, 0xDDDD#16⟩, [⟨.egcRop, 0x33#8⟩]) := by decide

/-- E14: the odd lane only. -/
theorem test_rl_read_byte :
    after (.egcRlRead true 1#15 .byte) (planes4 pc 0 ⟨0x1111#16, 0x2222#16, 0x3333#16, 0x4444#16⟩) (·.tile) =
      some ⟨0x1100#16, 0x2200#16, 0x3300#16, 0x4400#16⟩ := by decide

/-- Section 2.7: chain-4 with a mask, both vendors. -/
theorem test_dispatch_selects :
    let c : ExtConfig := { ega.cfg with
        disp := { ega.cfg.disp with displayMode := .vga8, chained := true, compatibleChain4 := true }
        planar := { ega.cfg.planar with bitMask := 0xFE#8 } }
    after .dispatch { ega with cfg := c } (·.handlerAt 0xA0000#32) = some .chainedVgaSlow ∧
    after .dispatch { ega with cfg := c, plat := { ega.plat with vendor := .et4000 } } (·.handlerAt 0xA0000#32) =
      some .chainedVgaEt4kSlow := by decide

/-- P6, steps 24 to 26: `TEXT` under window 3. -/
theorem test_disp_text :
    let c : ExtConfig := { ega.cfg with disp := { ega.cfg.disp with windowSelect := 3#2 } }
    after .dispText { ega with cfg := c } (fun t => (t.handlerAt 0xB8000#32, t.handlerAt 0xA0000#32)) =
      some (.text, .unmapped) := by decide

/-- Section 2.7: window 0 is 0xA0..0xBF. -/
theorem test_winsel0 :
    after (.winsel0 .linear) ega (fun t => (t.binding.pageMask, t.handlerAt 0xBFFFF#32)) = some (0x1FFFF#32, .linear) :=
  by decide

/-- R370: two cycles for a write, one for a read. -/
theorem test_debits :
    after (.unchainedWr .dword 0xA0000#32 0#32) ega (·.cyclesLeft) = some (-2) ∧
    after (.unchainedRd .dword 0xA0000#32) ega (·.cyclesLeft) = some (-1) := by decide

/-! ### Witnesses: concrete states and operands that meet the hypotheses of a statement, clause by clause -/

theorem ega_inv : ega.Inv :=
  ⟨by decide, by decide, by decide, by decide, by constructor <;> decide, by decide⟩

theorem pc_inv : pc.Inv :=
  ⟨by decide, by decide, by decide, by decide, by constructor <;> decide, by decide⟩

/-- A word access may be aligned at 0 and a byte access odd. -/
theorem aligned_zero : alignedAt .word 0 ∧ alignedAt .byte 1 := ⟨.inr rfl, .inl rfl⟩

/-- `pc` with a queue. -/
def queued (q : List QueueEntry) : State := pc.setInput q

theorem queued_inv (q : List QueueEntry) : (queued q).Inv :=
  ⟨pc_inv.vramWf, pc_inv.vramBelow, pc_inv.bufWf, pc_inv.bufBelow, pc_inv.shifter, pc_inv.loggedOnce⟩

theorem test_witness_DecodeOfEncode :
    Instr.wf (some 0x5A#8) (.egcropPat 0x5A#8 0#15) = true ∧ Instr.wf none (.wmUnsup 4#8 0#8) = true ∧
    Instr.wf none (.rd8 0#32) = true := by decide

theorem test_witness_RecordFormat :
    (0x2B#32 = BitVec.ofNat 32 (CfgField.msw 7).id ∧ 0x3E#32 = BitVec.ofNat 32 CfgField.shiftDstbit.id) ∧
    (3#32 = BitVec.ofNat 32 (3 : Plane).val ∧ 0#32 = BitVec.ofNat 32 (0 : Plane).val) ∧
    (∀ op ∈ [0x03#8, 0x07#8, 0x08#8, 0x7F#8, 0x85#8, 0xFF#8],
      op = 0x03#8 ∨ op = 0x07#8 ∨ (0x08 ≤ op.toNat ∧ op.toNat ≤ 0x7F) ∨ 0x85 ≤ op.toNat) ∧
    (queued [.record (0x85#8 :: (bytes32 0#32 ++ bytes32 0#32))]).input =
      .record (0x85#8 :: (bytes32 0#32 ++ bytes32 0#32)) :: [] := by decide

theorem test_witness_StepRunsDecoded :
    decode (queued [.frame (tableBytes 80 0xB083)]).plat.patCode (tableBytes 80 0xB083) = .ok .egcReinit ∧
    decodeRecord [0x83#8, 0#8, 0#8, 0#8, 0#8, 0#8, 0#8, 0#8, 0#8] = .ok .egcReinit ∧
    decode (queued [.frame []]).plat.patCode [] = .error (.wrongLength 0) ∧
    decodeRecord [0x03#8, 0#8, 0#8, 0#8, 0#8, 0#8, 0#8, 0#8, 0#8] = .error (.unassignedOp 0x03#8) ∧
    (queued []).input = [] ∧ (queued [.frame []]).input = .frame [] :: [] := ⟨rfl, rfl, rfl, rfl, rfl, rfl⟩

theorem test_witness_StepKeepsInv :
    (queued [.frame (tableBytes 80 0xB083)]).Inv ∧ ∃ t, step (queued [.frame (tableBytes 80 0xB083)]) = .next t :=
  ⟨queued_inv _, _, rfl⟩

theorem test_witness_ExecFrame :
    ∃ t, exec .dispatch ega = .next t := ⟨_, rfl⟩

theorem test_witness_LoggedAndCyclesNeverRead :
    ∃ t, exec .dispatch ega = .next t := ⟨_, rfl⟩

theorem test_witness_LoggedOnlyGrows :
    (∃ t, exec .reset ega = .next t) ∧ (∃ t, exec (.wmUnsup 4#8 0#8) ega = .next t) ∧ ega.logged.Nodup :=
  ⟨⟨_, rfl⟩, ⟨_, rfl⟩, by decide⟩

theorem test_witness_CfgWritesOneField :
    CfgField.readMode ≠ CfgField.writeMode ∧ CfgField.msw 1 ≠ CfgField.msw 0 := by decide

theorem test_witness_TileLoad :
    (1 : Plane) ≠ 0 := by decide

theorem test_witness_UnsupportedWriteMode :
    4 ≤ (4#8).toNat ∧ 4 ≤ (0xFF#8).toNat ∧ (⟨.writeMode, 4#8⟩ : LogMark) ∉ ega.logged ∧
    (⟨.writeMode, 4#8⟩ : LogMark) ∈ (ega.setLogged [⟨.writeMode, 4#8⟩]).logged := by decide

theorem test_witness_PlanarReadMode0 :
    2 ≤ ega.plat.vmemBits := by decide

theorem test_witness_PlanarReadMode1 :
    2 ≤ ega.plat.vmemBits ∧ (withPlanar ega { ega.cfg.planar with colorDontCare := 8#4 }).cfg.planar.colorDontCare.getLsbD 3 = true :=
  by decide

theorem test_witness_LatchedByteWrites :
    ega.Inv ∧ 2 ≤ ega.plat.vmemBits ∧ Tag.latched .unchained = true ∧ Tag.latched .chainedVgaSlow = true ∧
    Tag.latched .chainedVgaEt4kSlow = true := ⟨ega_inv, by decide, rfl, rfl, rfl⟩

theorem test_witness_LatchedWideAccesses :
    Tag.latched .unchained = true ∧ Tag.latched .chainedVgaEt4kSlow = true := by decide

theorem test_witness_ByteLinearBytes :
    ega.Inv ∧ Tag.byteLinear .chainedVga = true ∧ Tag.byteLinear .linear = true ∧ ega.lfbOf 0xA0000#32 = none :=
  ⟨ega_inv, rfl, rfl, rfl⟩

/-- `ega` with a linear framebuffer window of 64 KB at 0xE0000000. -/
def lfb : State := { ega with plat := { ega.plat with lfb := some ⟨0xE0000000#32, .kb64⟩ } }

theorem lfb_inv : lfb.Inv :=
  ⟨by decide, by decide, by decide, by decide, by constructor <;> decide, by decide⟩

theorem test_witness_LfbBytes :
    lfb.Inv ∧ lfb.lfbOf 0xE0000000#32 = some ⟨0xE0000000#32, .kb64⟩ ∧ lfb.lfbOf 0xE000FFFF#32 = some ⟨0xE0000000#32, .kb64⟩ ∧
    lfb.lfbOf 0xE0010000#32 = none ∧ lfb.lfbOf 0xDFFFFFFF#32 = none :=
  ⟨lfb_inv, by decide, by decide, by decide, by decide⟩

/-- In one piece with mask and bank that leave the low bits alone, outside the window and with a window elsewhere; split;
inside the window, at its last doubleword. -/
theorem test_witness_WideByteLinearIsBytes :
    lfb.Inv ∧ Tag.byteLinear .chainedEga = true ∧ Tag.byteLinear .linear = true ∧ 2 ≤ lfb.plat.vmemBits ∧
    (lfb.linearAt .linear 0#32 0xAFFFC#32 % 4 = 0 ∧ (∀ k, k < 4 → lfb.lfbOf (0xAFFFC#32 + BitVec.ofNat 32 k) = none)) ∧
    (lfb.binding.pageMask &&& 3#32 = 3#32 ∧ lfb.binding.bankReadFull &&& 3#32 = 0#32 ∧
      lfb.binding.bankWriteFull &&& 3#32 = 0#32) ∧
    lfb.linearAt .linear 0#32 0xAFFFD#32 % widthBytes .word ≠ 0 ∧
    (lfb.linearAt .linear 0#32 0xE000FFFC#32 % 4 = 0 ∧
      ∀ k, k < 4 → lfb.lfbOf (0xE000FFFC#32 + BitVec.ofNat 32 k) = some ⟨0xE0000000#32, .kb64⟩) :=
  ⟨lfb_inv, by decide, by decide, by decide, by decide, by decide, by decide, by decide⟩

theorem test_witness_SlowIsFastUnderIdentity :
    ega.Inv ∧ 2 ≤ ega.plat.vmemBits ∧ ega.cfg.planar.bitMask = 0xFF#8 ∧ ega.cfg.planar.writeMode = 0#8 ∧
    ega.cfg.planar.dataRotate = 0#3 ∧ ega.cfg.planar.enableSetReset = 0#4 ∧ ega.cfg.planar.rasterOp = 0#2 ∧
    ega.cfg.planar.readMode = false ∧ ega.cfg.planar.oddEven = false ∧
    ega.planeOn (chainPlane (((0xA0003#32 &&& ega.binding.pageMask) + ega.binding.bankWriteFull).toNat % ega.plat.vmemSize)) =
      true := ⟨ega_inv, by decide, rfl, rfl, rfl, rfl, rfl, rfl, rfl, by decide⟩

theorem test_witness_AccessDebitsOnce :
    Tag.served .unchained = true ∧ Tag.served .pc98 = true ∧ Width.direct .word 0xA0000#32 ∧ Width.direct .byte 0xA0001#32 ∧
    Width.direct .dword 0xA0001#32 := ⟨rfl, rfl, .inr (by decide), .inl (by decide), .inl (by decide)⟩

theorem test_witness_UnmappedAndLegacyRefused :
    Tag.amstrad ∈ [Tag.text, .cgaSnowText, .hercules, .tandy, .pcjr, .amstrad] := by decide

theorem test_witness_TransactionsServed :
    pc.handlerAt 0xA0001#32 = .pc98 ∧
    pc.sameBinding 0xA0001#32 (0xA0001#32 + BitVec.ofNat 32 (widthBytes .dword - 1)) = true ∧ Width.direct .dword 0xA0001#32 ∧
    ega.handlerAt 0xA0FFF#32 = .unchained ∧
    ega.sameBinding 0xA0FFF#32 (0xA0FFF#32 + BitVec.ofNat 32 (widthBytes .word - 1)) = true :=
  ⟨by decide, by decide, .inl (by decide), by decide, by decide⟩

/-- `ega` with two neighbouring pages bound to two tags that have a meaning. -/
def twoBindings : State :=
  ega.setBinding { ega.binding with bound := [⟨0xA0, 1, .unchained⟩, ⟨0xA1, 1, .chainedEga⟩] }

theorem test_witness_TransactionsComplete :
    (∀ k, k < widthBytes .dword → (ega.handlerAt (0xAFFFC#32 + BitVec.ofNat 32 k)).served = true) ∧
    (∀ k, k < widthBytes .word → (pc.handlerAt (0xA0FFF#32 + BitVec.ofNat 32 k)).served = true) := by decide

theorem test_witness_TransactionsComplete_word_over_two :
    (∀ k, k < widthBytes .word → (twoBindings.handlerAt (0xA0FFF#32 + BitVec.ofNat 32 k)).served = true) ∧
    twoBindings.sameBinding 0xA0FFF#32 (0xA0FFF#32 + 1) = false := by decide

theorem test_witness_TransactionsComplete_even_over_two :
    (∀ k, k < widthBytes .dword → (twoBindings.handlerAt (0xA0FFE#32 + BitVec.ofNat 32 k)).served = true) ∧
    twoBindings.sameBinding 0xA0FFE#32 (0xA0FFE#32 + 3) = false ∧ (0xA0FFE#32).toNat % 2 = 0 := by decide

theorem test_witness_TransactionsComplete_odd_over_two :
    (∀ k, k < widthBytes .dword → (twoBindings.handlerAt (0xA0FFD#32 + BitVec.ofNat 32 k)).served = true) ∧
    twoBindings.sameBinding 0xA0FFD#32 (0xA0FFD#32 + 3) = false ∧ (0xA0FFD#32).toNat % 2 = 1 := by decide

theorem test_witness_Pc98Wrapper :
    pc.handlerAt 0xA0000#32 = .pc98 ∧ pc.handlerAt 0xA0001#32 = .pc98 ∧
    (pc.sameBinding 0xA0000#32 (0xA0000#32 + 1) = true ∧ (0xA0000#32).toNat % 2 = 0) ∧
    (pc.sameBinding 0xA0FFF#32 (0xA0FFF#32 + 1) = true ∧ (0xA0FFF#32).toNat % 2 = 1) ∧
    (pc.sameBinding 0xA0FFE#32 (0xA0FFE#32 + 3) = true ∧ (0xA0FFE#32).toNat % 2 = 0) ∧
    (pc.sameBinding 0xA0001#32 (0xA0001#32 + 3) = true ∧ (0xA0001#32).toNat % 2 = 1) := by decide

theorem test_witness_Pc98Decode :
    alignedAt .word (0xA3FFE#32).toNat ∧ alignedAt .byte (0xA3FE1#32).toNat := ⟨.inr (by decide), .inl rfl⟩

theorem test_witness_MisalignedDecoderAccess :
    (0xA1001#32).toNat % 2 = 1 ∧ (0x8001#18).toNat % 2 = 1 ∧ (0x7FFF#15).toNat % 2 = 1 := by decide

theorem test_witness_MswWindow :
    alignedAt .word (0xA3FE0#32).toNat ∧ alignedAt .byte (0xA3FFF#32).toNat := ⟨.inr (by decide), .inl rfl⟩

theorem test_witness_TextWindows :
    pc.Inv ∧ 2 ≤ pc.plat.vmemBits ∧ alignedAt .word (0xA1FFE#32).toNat ∧ pc.outside 0x1FFE (portBytes .word) 0x2000 :=
  ⟨pc_inv, by decide, .inr (by decide), by
    intro j hj
    have : j = 0 ∨ j = 1 := by simp only [portBytes] at hj; omega
    rcases this with rfl | rfl <;> decide⟩

theorem test_witness_AttributeRam :
    pc.Inv ∧ 2 ≤ pc.plat.vmemBits ∧ alignedAt .byte (0xA2001#32).toNat ∧ (0xA2001#32).toNat % 2 = 1 ∧
    alignedAt .word (0xA3FDE#32).toNat ∧ (0xA3FDE#32).toNat % 2 = 0 :=
  ⟨pc_inv, by decide, .inl rfl, by decide, .inr (by decide), by decide⟩

theorem test_witness_GraphicsDispatch :
    alignedAt .word (0xA8000#32).toNat ∧ alignedAt .byte (0xE7FFF#32).toNat := ⟨.inr (by decide), .inl rfl⟩

theorem test_witness_GraphicsPassThrough :
    pc.Inv ∧ 2 ≤ pc.plat.vmemBits ∧ alignedAt .word (0x27FFE#18).toNat := ⟨pc_inv, by decide, .inr (by decide)⟩

theorem test_witness_TileCopyRead :
    alignedAt .byte (0x8001#18).toNat ∧ alignedAt .word (0xFFFE#18).toNat ∧ pc.cfg.pc98.chEn.getLsbD (3 : Plane).val = true :=
  ⟨.inl rfl, .inr (by decide), by decide⟩

theorem test_witness_TileWrites :
    pc.Inv ∧ 19 ≤ pc.plat.vmemBits ∧ alignedAt .word (0xFFFE#18).toNat ∧ pc.cfg.pc98.chEn.getLsbD (0 : Plane).val = true ∧
    1 < portBytes .word := ⟨pc_inv, by decide, .inr (by decide), by decide, by decide⟩

theorem test_witness_RopPattern :
    (patState 0xCA#8).plat.patCode = some 0xCA#8 := rfl

theorem test_witness_RopStub :
    (⟨.egcRop, 0x33#8⟩ : LogMark) ∉ pc.logged ∧
    (⟨.egcRop, 0x33#8⟩ : LogMark) ∈ (pc.setLogged [⟨.egcRop, 0x33#8⟩]).logged := by decide

theorem test_witness_LightsDirect :
    alignedAt .byte (0x7FFF#15).toNat ∧ alignedAt .word (0#15).toNat ∧
    (withEgc pc { pc.cfg.egc with fgc := 1#2 }).cfg.egc.fgc = 1#2 ∧ (withEgc pc { pc.cfg.egc with fgc := 2#2 }).cfg.egc.fgc = 2#2 :=
  ⟨.inl rfl, .inr rfl, rfl, rfl⟩

theorem test_witness_LightsShifted :
    alignedAt .byte (0x7FFF#15).toNat ∧ (withEgc pc { pc.cfg.egc with shiftinput := true }).cfg.egc.shiftinput = true ∧
    pc.cfg.egc.shiftinput = false ∧ pc.cfg.egc.fgc = 0#2 ∧ (withEgc pc { pc.cfg.egc with fgc := 3#2 }).cfg.egc.fgc = 3#2 :=
  ⟨.inl rfl, rfl, rfl, rfl, rfl⟩

theorem test_witness_RegisterLoads :
    alignedAt .byte (0x7FFF#15).toNat ∧ alignedAt .word (0x7FFE#15).toNat := ⟨.inl rfl, .inr (by decide)⟩

theorem test_witness_EgcWrite :
    pc.Inv ∧ 19 ≤ pc.plat.vmemBits ∧ alignedAt .word (0xFFFE#18).toNat ∧ alignedAt .byte (0xFFFF#18).toNat ∧
    pc.cfg.egc.access.getLsbD (3 : Plane).val = false :=
  ⟨pc_inv, by decide, .inr (by decide), .inl rfl, by decide⟩

theorem test_witness_EgcRead :
    alignedAt .word (0xFFFE#18).toNat ∧ alignedAt .byte (0xFFFF#18).toNat := ⟨.inr (by decide), .inl rfl⟩

theorem test_witness_Reinit :
    (let c := (shifter pc false 15#12 0#4 15#4).cfg.egc; c.shiftSrcbit.toNat % 8 < c.shiftDstbit.toNat % 8) ∧
    (let c := (shifter pc false 15#12 7#4 8#4).cfg.egc; c.shiftDstbit.toNat % 8 < c.shiftSrcbit.toNat % 8) ∧
    (let c := (shifter pc false 15#12 8#4 0#4).cfg.egc; c.shiftSrcbit.toNat % 8 = c.shiftDstbit.toNat % 8) :=
  by decide

theorem test_witness_ShiftInputs :
    pc.Inv ∧ (0 : Nat) ≠ (pc.sh.bufi + 4 * (1 : Plane).val) % 512 := ⟨pc_inv, by decide⟩

theorem test_witness_BoundaryMask :
    pc.sh.dstbit < 8 ∧ (pc.setSh { pc.sh with dstbit := 7 }).sh.dstbit < 8 := by decide

/-- `pc` with some registers of the Shifter replaced. -/
def shiftState (o1 o2 db load remain : Nat) : State :=
  pc.setSh { pc.sh with oSrcbit := o1, oDstbit := o2, dstbit := db, load := load, remain := remain }

theorem shiftState_inv {o1 o2 db load remain : Nat} (h1 : o1 < 8) (h2 : o2 < 8) (h3 : db < 16) (h4 : remain ≤ 4096) :
    (shiftState o1 o2 db load remain).Inv :=
  ⟨pc_inv.vramWf, pc_inv.vramBelow, pc_inv.bufWf, pc_inv.bufBelow,
    ⟨h4, pc_inv.shifter.srcbit, h3, h1, h2, pc_inv.shifter.shl, pc_inv.shifter.shr, pc_inv.shifter.bufi,
      pc_inv.shifter.bufo⟩, pc_inv.loggedOnce⟩

theorem test_witness_ShiftOutLane :
    ((shiftState 0 0 8 0 16).Inv ∧ 8 ≤ (shiftState 0 0 8 0 16).sh.dstbit) ∧
    ((shiftState 3 3 7 0 16).Inv ∧ (shiftState 3 3 7 0 16).sh.dstbit < 8 ∧ (shiftState 3 3 7 0 16).sh.oSrcbit = (shiftState 3 3 7 0 16).sh.oDstbit) ∧
    ((shiftState 0 7 7 0 16).Inv ∧ (shiftState 0 7 7 0 16).sh.oSrcbit < (shiftState 0 7 7 0 16).sh.oDstbit ∧ (shiftState 0 7 7 0 16).sh.dstbit ≠ 0) ∧
    ((shiftState 7 0 0 0 16).Inv ∧ (shiftState 7 0 0 0 16).sh.oDstbit < (shiftState 7 0 0 0 16).sh.oSrcbit) := by
  refine ⟨⟨shiftState_inv ?_ ?_ ?_ ?_, ?_⟩, ⟨shiftState_inv ?_ ?_ ?_ ?_, ?_, ?_⟩, ⟨shiftState_inv ?_ ?_ ?_ ?_, ?_, ?_⟩,
    shiftState_inv ?_ ?_ ?_ ?_, ?_⟩ <;> decide

theorem test_witness_ShiftOutputs :
    (((shiftState 0 0 0 7 16).sh.load : Int) < 8 - ((shiftState 0 0 0 7 16).sh.dstbit : Int)) ∧
    (8 - ((shiftState 0 0 0 8 16).sh.dstbit : Int) ≤ ((shiftState 0 0 0 8 16).sh.load : Int)) ∧
    (8 - ((shiftState 0 4 12 0 16).sh.dstbit : Int) ≤ ((shiftState 0 4 12 0 16).sh.load : Int)) ∧
    ((shiftState 0 0 0 15 16).sh.dstbit < 16 ∧ (shiftState 0 0 0 15 16).sh.load < 16 - (shiftState 0 0 0 15 16).sh.dstbit) ∧
    ((shiftState 0 7 15 1 16).sh.dstbit < 16 ∧ 16 - (shiftState 0 7 15 1 16).sh.dstbit ≤ (shiftState 0 7 15 1 16).sh.load) :=
  by decide

theorem test_witness_ShiftPassThrough :
    ∀ r ∈ [8, 16, 4096], (shiftState 5 5 0 0 r).Inv ∧ (shiftState 5 5 0 0 r).sh.load = 0 ∧ (shiftState 5 5 0 0 r).sh.srcbit = 0 ∧
    (shiftState 5 5 0 0 r).sh.dstbit = 0 ∧ (shiftState 5 5 0 0 r).sh.oSrcbit = (shiftState 5 5 0 0 r).sh.oDstbit ∧
    (shiftState 5 5 0 0 r).sh.bufi = (shiftState 5 5 0 0 r).sh.bufo := by
  intro r hr
  have h : r ≤ 4096 := by fin_cases hr <;> decide
  exact ⟨shiftState_inv (by decide) (by decide) (by decide) h, rfl, rfl, rfl, rfl, rfl⟩

/-- `ega` with a machine and a display configuration. -/
def shown (m : MachineType) (mode : DisplayMode) (chained compat : Bool) (mask : Byte) : State :=
  { ega with
    plat := { ega.plat with machine := m, cgaSnow := true }
    cfg :=
      { ega.cfg with
        disp := { ega.cfg.disp with displayMode := mode, chained := chained, compatibleChain4 := compat }
        planar := { ega.cfg.planar with bitMask := mask } } }

theorem test_witness_DispatchSelects :
    (∀ m ∈ [MachineType.cga, .hercules, .tandy, .pcjr, .amstrad, .egavga, .pc98], (shown m .vga8 true true 0xFE#8).plat.machine = m) ∧
    ((shown .cga .text false false 0#8).plat.cgaSnow = true ∧ (shown .cga .text false false 0#8).cfg.disp.displayMode = .text) ∧
    (¬ ((shown .cga .cga2 false false 0#8).plat.cgaSnow = true ∧ (shown .cga .cga2 false false 0#8).cfg.disp.displayMode = .text)) ∧
    ((shown .egavga .vga8 true true 0xFE#8).cfg.planar.bitMask ≠ 0xFF#8 ∧ (shown .egavga .vga8 true true 0xFE#8).plat.vendor = .other) ∧
    (∀ d ∈ [DisplayMode.text, .cga2, .cga4, .ega, .vga8, .lin15, .lin16, .lin24, .lin32, .pc98, .other],
      (shown .egavga d true false 0xFF#8).cfg.disp.displayMode = d ∧ (shown .egavga d true false 0xFF#8).plat.machine = .egavga) :=
  by decide

theorem test_witness_DispatchBindsWindow :
    Tag.windowed .unmapped = true ∧ Tag.windowed .linear = true ∧ ega.plat.machine = .egavga ∧
    (lfb.lfbOf 0xE0000000#32).isSome = true ∧ (0xA0 ≤ (0xAFFFF#32).toNat / 4096 ∧ (0xAFFFF#32).toNat / 4096 < 0xA0 + 16) :=
  by decide

theorem test_witness_DispatchBindsPc98OrLegacy :
    Tag.windowed .pc98 = false ∧ Tag.windowed .hercules = false ∧ Tag.windowed .text = false ∧ pc.plat.machine ≠ .egavga ∧
    (0xA0000 ≤ (0xBFFFF#32).toNat ∧ (0xBFFFF#32).toNat ≤ 0xBFFFF) ∧ (0xE0000 ≤ (0xE7FFF#32).toNat ∧ (0xE7FFF#32).toNat ≤ 0xE7FFF) ∧
    (lfb.lfbOf 0xE000FFFF#32).isSome = true ∧ (lfb.lfbOf 0xE0010000#32).isSome = false :=
  by decide

theorem test_witness_BindWindow :
    ega.plat.winBase = #v[0xA0000#32, 0xA0000#32, 0xB0000#32, 0xB8000#32] ∧
    (0xB8 ≤ (0xB8000#32).toNat / 4096 ∧ (0xBFFFF#32).toNat / 4096 ≤ 0xBF) ∧ (0x9FFFF#32).toNat / 4096 < 0xA0 ∧
    0xBF < (0xC0000#32).toNat / 4096 := by decide

theorem test_witness_FastChainedOnlyUnmasked :
    after .dispatch (shown .egavga .vga8 true true 0xFF#8) (·.handlerAt 0xA0000#32) = some .chainedVga ∧
    after .dispatch (shown .egavga .vga8 true true 0xFE#8) (·.handlerAt 0xA0000#32) = some .chainedVgaSlow :=
  by decide

end Sys2Proof.Tests
end

section
/-! One step, by the head of the queue (R352, log entry 1). -/

namespace Sys2Proof.Machine

theorem step_of_empty {s : State} (h : s.input = []) : step s = .next s := by
  unfold step
  rw [h]

theorem step_of_decoded {s : State} {x : QueueEntry} {rest : List QueueEntry} {i : Instr} (h : s.input = x :: rest)
    (hi : decodeEntry s.plat.patCode x = .ok i) : step s = exec i (s.setInput rest) := by
  simp only [step, h, hi]

theorem step_of_not_decoded {s : State} {x : QueueEntry} {rest : List QueueEntry} {why : DecodeError}
    (h : s.input = x :: rest) (hw : decodeEntry s.plat.patCode x = .error why) :
    step s = .refused (.badRecord why) := by
  simp only [step, h, hw]

/-- One step answers a next state in two ways: it waits on an empty queue, or it runs the oldest entry's instruction with
that entry taken off (R352, log entry 1). -/
theorem step_next {s t : State} (e : step s = .next t) :
    (s.input = [] ∧ t = s) ∨
      ∃ x rest i, s.input = x :: rest ∧ decodeEntry s.plat.patCode x = .ok i ∧ exec i (s.setInput rest) = .next t := by
  unfold step at e
  split at e
  case h_1 hq => exact .inl ⟨hq, (Host.Outcome.next.inj e).symm⟩
  case h_2 x rest hq =>
    split at e
    · cases e
    case h_2 i hi => exact .inr ⟨x, rest, i, hq, hi, e⟩

/-- Settles O4: the five cases are the step's three equations, at a frame and at a record. -/
theorem stepRunsDecoded : Obligations.StepRunsDecoded := by
  unfold Obligations.StepRunsDecoded
  exact fun s rest bs => ⟨fun _ => step_of_decoded, fun _ => step_of_decoded, fun _ => step_of_not_decoded,
    fun _ => step_of_not_decoded, step_of_empty⟩

end Sys2Proof.Machine
end

section
/-! The frame of every instruction: the decoder's and the bus's operations, inverted once, and the fields each row of
`exec` can change. -/

namespace Sys2Proof.Machine

theorem State.keepsBut_setInput (s : State) (x : List QueueEntry) : s.keepsBut [.input] (s.setInput x) := fun r hr => by
  cases r with
  | input => exact absurd hr (by decide)
  | _ => rfl

/-! ### Accesses of the PC-98 decoder -/

/-- A graphics read leaves the state as it was or as the EGC read leaves it: the 4-bit `vop_mode` has no sixth arm
(R112, R113). -/
theorem State.graphicsRead_state (s : State) (off : Nat) (n : PortWidth) :
    (s.graphicsRead off n).2 = s ∨ (s.graphicsRead off n).2 = s.egcReadState off n := by
  have hlt : s.cfg.pc98.vopMode.toNat < 16 := s.cfg.pc98.vopMode.isLt
  unfold State.graphicsRead
  split
  case h_13 | h_14 | h_15 | h_16 => exact .inr rfl
  case h_17 =>
    simp only [imp_false] at *
    omega
  all_goals exact .inl rfl

/-- A graphics write is one of the four assigned operations (R112). -/
theorem State.graphicsWrite_cases (s : State) (off : Nat) (n : PortWidth) (v : Half) :
    s.graphicsWrite off n v = s.passWrite off n v ∨ s.graphicsWrite off n v = s.tileCopyWrite (inPlane off) n ∨
      s.graphicsWrite off n v = s.tileMaskWrite (inPlane off) n v ∨
      s.graphicsWrite off n v = s.egcWrite (inPlane off) n v := by
  have hlt : s.cfg.pc98.vopMode.toNat < 16 := s.cfg.pc98.vopMode.isLt
  unfold State.graphicsWrite
  split
  case h_9 | h_10 => exact .inr (.inl rfl)
  case h_11 | h_12 => exact .inr (.inr (.inl rfl))
  case h_13 | h_14 | h_15 | h_16 => exact .inr (.inr (.inr rfl))
  case h_17 =>
    simp only [imp_false] at *
    omega
  all_goals exact .inl rfl

/-- A decoder read leaves the state as it was or as the EGC read leaves it. -/
theorem decoderRead_next {n : PortWidth} {addr : Word} {s t : State} {v : Half}
    (e : decoderRead n addr s = .next (v, t)) : t = s ∨ t = s.egcReadState (fold addr) n := by
  obtain ⟨-, e⟩ := aligned_next_iff.1 e
  split at e
  case h_6 =>
    obtain ⟨-, rfl⟩ := Prod.mk.inj (Host.Outcome.next.inj e)
    exact s.graphicsRead_state _ n
  all_goals exact .inl (Prod.mk.inj (Host.Outcome.next.inj e)).2.symm

/-- A decoder write is ignored, or it is the write of its region (R212). -/
theorem decoderWrite_next {n : PortWidth} {addr : Word} {v : Half} {s t : State}
    (e : decoderWrite n addr v s = .next t) :
    t = s ∨ t = s.pwrite (fold addr) n v ∨ t = s.attrWrite (fold addr) n v ∨ t = s.graphicsWrite (fold addr) n v := by
  obtain ⟨-, e⟩ := aligned_next_iff.1 e
  split at e <;> obtain rfl := Host.Outcome.next.inj e
  case h_1 | h_5 => exact .inl rfl
  case h_2 | h_4 => exact .inr (.inl rfl)
  case h_3 => exact .inr (.inr (.inl rfl))
  case h_6 => exact .inr (.inr (.inr rfl))

theorem State.graphicsRead_keeps (s : State) (off : Nat) (n : PortWidth) :
    s.keepsBut ([.tile, .egcLast] ++ shiftRegs) (s.graphicsRead off n).2 := by
  obtain e | e := s.graphicsRead_state off n <;> rw [e]
  · exact s.keepsBut_refl _
  · exact s.egcReadState_keeps off n

theorem State.graphicsWrite_keeps (s : State) (off : Nat) (n : PortWidth) (v : Half) :
    s.keepsBut ([.vram, .tile, .logged] ++ shiftRegs) (s.graphicsWrite off n v) := by
  obtain e | e | e | e := s.graphicsWrite_cases off n v <;> rw [e]
  · exact (s.pwrite_keeps _ n v).mono (by decide)
  · exact (s.tileCopyWrite_keeps _ n).mono (by decide)
  · exact (s.tileMaskWrite_keeps _ n v).mono (by decide)
  · exact s.egcWrite_keeps _ n v

theorem decoderRead_keeps {n : PortWidth} {addr : Word} {s t : State} {v : Half}
    (e : decoderRead n addr s = .next (v, t)) : s.keepsBut ([.tile, .egcLast] ++ shiftRegs) t := by
  obtain rfl | rfl := decoderRead_next e
  · exact t.keepsBut_refl _
  · exact s.egcReadState_keeps _ n

theorem decoderWrite_keeps {n : PortWidth} {addr : Word} {v : Half} {s t : State}
    (e : decoderWrite n addr v s = .next t) : s.keepsBut ([.vram, .tile, .logged] ++ shiftRegs) t := by
  obtain rfl | rfl | rfl | rfl := decoderWrite_next e
  · exact t.keepsBut_refl _
  · exact (s.pwrite_keeps _ n v).mono (by decide)
  · exact (s.attrWrite_keeps _ n v).mono (by decide)
  · exact s.graphicsWrite_keeps _ n v

theorem decoderReads_keeps {n : PortWidth} {k : Nat} {addr : Word} {s t : State} {v : Word}
    (e : decoderReads n k addr s = .next (v, t)) : s.keepsBut ([.tile, .egcLast] ++ shiftRegs) t :=
  decoderReads_preserves (s.keepsBut _) n (fun _ _ _ _ hs h => hs.trans (decoderRead_keeps h)) k addr s v t
    (s.keepsBut_refl _) e

theorem decoderWrites_keeps {n : PortWidth} {k : Nat} {addr data : Word} {s t : State}
    (e : decoderWrites n k addr data s = .next t) : s.keepsBut ([.vram, .tile, .logged] ++ shiftRegs) t :=
  decoderWrites_preserves (s.keepsBut _) n (fun _ _ _ _ hs h => hs.trans (decoderWrite_keeps h)) k addr data s t
    (s.keepsBut_refl _) e

/-! ### Transactions -/

/-- What every delivery to a handler keeps, a bus read keeps. -/
theorem memRead_preserves (P : State → Prop)
    (hf : ∀ h w a s v t, P s → serveRead h w a s = .next (v, t) → P t) {w : Width} {addr : Word} {s t : State} {v : Word}
    (h : P s) (e : memRead w addr s = .next (v, t)) : P t :=
  readParts_preserves P _ (fun h => hf h _) _ _ _ _ _ h e

/-- What every delivery to a handler keeps, a bus write keeps. -/
theorem memWrite_preserves (P : State → Prop)
    (hf : ∀ h w a d s t, P s → serveWrite h w a d s = .next t → P t) {w : Width} {addr data : Word} {s t : State}
    (h : P s) (e : memWrite w addr data s = .next t) : P t :=
  writeParts_preserves P _ (fun h => hf h _) _ _ _ _ _ h e

/-- A read served by a planar handler changes the Latch at most, besides the budget. -/
theorem serveRead_keeps_of_ne_pc98 {h : Tag} (hh : h ≠ .pc98) {w : Width} {addr : Word} {s t : State} {v : Word}
    (e : serveRead h w addr s = .next (v, t)) : s.keepsBut [.latch, .cyclesLeft] t := by
  cases h with
  | pc98 => exact absurd rfl hh
  | unmapped | text | cgaSnowText | hercules | tandy | pcjr | amstrad => cases e
  | unchained => exact (Prod.mk.inj (Host.Outcome.next.inj e)).2 ▸ unchainedRead_keeps w addr s
  | chainedVgaSlow => exact (Prod.mk.inj (Host.Outcome.next.inj e)).2 ▸ chainedVgaSlowRead_keeps w addr s
  | chainedVgaEt4kSlow => exact (Prod.mk.inj (Host.Outcome.next.inj e)).2 ▸ chainedVgaEt4kSlowRead_keeps w addr s
  | chainedEga | chainedVga | chainedVgaEt4k | linear => cases e; exact s.debitRead_keeps.mono (by decide)

/-- A write served by a planar handler changes VRAM and `Logged` at most, besides the budget. -/
theorem serveWrite_keeps_of_ne_pc98 {h : Tag} (hh : h ≠ .pc98) {w : Width} {addr data : Word} {s t : State}
    (e : serveWrite h w addr data s = .next t) : s.keepsBut [.vram, .logged, .cyclesLeft] t := by
  cases h with
  | pc98 => exact absurd rfl hh
  | unmapped | text | cgaSnowText | hercules | tandy | pcjr | amstrad => cases e
  | unchained => cases e; exact unchainedWrite_keeps w addr data s
  | chainedVgaSlow => cases e; exact chainedVgaSlowWrite_keeps w addr data s
  | chainedVgaEt4kSlow => cases e; exact chainedVgaEt4kSlowWrite_keeps w addr data s
  | chainedEga => cases e; exact (chainedEgaWrite_keeps w addr data s).mono (by decide)
  | chainedVga => cases e; exact (chainedVgaWrite_keeps w addr data s).mono (by decide)
  | chainedVgaEt4k => cases e; exact (chainedVgaEt4kWrite_keeps w addr data s).mono (by decide)
  | linear => cases e; exact (linearTagWrite_keeps w addr data s).mono (by decide)

/-- What a transaction's read can change. -/
def readRegs : List Reg := [.latch, .tile, .egcLast, .cyclesLeft] ++ shiftRegs

/-- What a transaction's write can change. -/
def writeRegs : List Reg := [.vram, .tile, .logged, .cyclesLeft] ++ shiftRegs

theorem serveRead_keeps {h : Tag} {w : Width} {addr : Word} {s t : State} {v : Word}
    (e : serveRead h w addr s = .next (v, t)) : s.keepsBut readRegs t := by
  by_cases hh : h = .pc98
  · subst hh
    exact (s.debitRead_keeps.mono (by decide)).trans ((decoderReads_keeps e).mono (by decide))
  · exact (serveRead_keeps_of_ne_pc98 hh e).mono (by decide)

theorem serveWrite_keeps {h : Tag} {w : Width} {addr data : Word} {s t : State}
    (e : serveWrite h w addr data s = .next t) : s.keepsBut writeRegs t := by
  by_cases hh : h = .pc98
  · subst hh
    exact (s.debitWrite_keeps.mono (by decide)).trans ((decoderWrites_keeps e).mono (by decide))
  · exact (serveWrite_keeps_of_ne_pc98 hh e).mono (by decide)

theorem memRead_keeps {w : Width} {addr : Word} {s t : State} {v : Word} (e : memRead w addr s = .next (v, t)) :
    s.keepsBut readRegs t :=
  memRead_preserves (s.keepsBut _) (fun _ _ _ _ _ _ hs h => hs.trans (serveRead_keeps h)) (s.keepsBut_refl _) e

theorem memWrite_keeps {w : Width} {addr data : Word} {s t : State} (e : memWrite w addr data s = .next t) :
    s.keepsBut writeRegs t :=
  memWrite_preserves (s.keepsBut _) (fun _ _ _ _ _ _ hs h => hs.trans (serveWrite_keeps h)) (s.keepsBut_refl _) e

/-! ### The rows -/

/-- A row that ends by setting the port on a state `u` changes what led to `u`, and the port. -/
theorem State.keepsBut.out_next {s u t : State} {o : Out} {l l' : List Reg} (hk : s.keepsBut l u)
    (e : (.next (u.setOut o) : Result) = .next t) (hl : ∀ r ∈ .out :: l, r ∈ l' := by simp [Instr.writes, shiftRegs]) :
    s.keepsBut l' t := by
  obtain rfl := Host.Outcome.next.inj e
  exact ((hk.mono fun r hr => List.mem_cons_of_mem _ hr).trans
    ((u.keepsBut_setOut o).mono (by simp))).mono hl

/-- A read row changes what its access changes, and the port. -/
theorem finishRead_keeps {w : Width} {r : ReadResult} {s t : State} {l l' : List Reg}
    (hk : ∀ v u, r = .next (v, u) → s.keepsBut l u) (e : finishRead w r = .next t)
    (hl : ∀ r ∈ .out :: l, r ∈ l' := by simp [Instr.writes, readRegs, shiftRegs]) : s.keepsBut l' t := by
  obtain ⟨v, u, hu, rfl⟩ := finishRead_next_iff.1 e
  exact (hk v u hu).out_next rfl hl

/-- A write row changes what its access changes, and the port. -/
theorem finishWrite_keeps {r : Result} {s t : State} {l l' : List Reg}
    (hk : ∀ u, r = .next u → s.keepsBut l u) (e : finishWrite r = .next t)
    (hl : ∀ r ∈ .out :: l, r ∈ l' := by simp [Instr.writes, writeRegs, shiftRegs]) : s.keepsBut l' t := by
  obtain ⟨u, hu, rfl⟩ := finishWrite_next_iff.1 e
  exact (hk u hu).out_next rfl hl

theorem State.ropStub_keeps (s : State) (code : Byte) : s.keepsBut [.logged] (s.ropStub code).2 := by
  rw [State.ropStub, State.logOnce_setLogged]
  exact s.keepsBut_setLogged _

/-- `EGCROP.PAT` answers a value only, or it is the stub (log entry 8). -/
theorem execEgcropPat_cases (code : Byte) (a : BitVec 15) (s : State) :
    (∃ o, execEgcropPat code a s = .next (s.setOut o)) ∨
      ∃ o, execEgcropPat code a s = .next ((s.ropStub code).2.setOut o) := by
  unfold execEgcropPat
  split
  · exact .inl ⟨_, rfl⟩
  · exact .inr ⟨_, rfl⟩

theorem State.resetAll_keeps (s : State) : s.keepsBut [.vram, .sh, .binding, .logged] s.resetAll :=
  ((((s.keepsBut_setVram []).mono (by decide)).trans ((State.reinit_keeps _).mono (by decide))).trans
    ((State.dispatch_keeps _).mono (by decide))).trans ((State.keepsBut_setLogged _ []).mono (by decide))

/-- Light source 1 changes the Shifter's data path and, for a stub, `Logged`. -/
theorem State.light1_keeps (s : State) (a : Nat) (n : PortWidth) (v : Half) :
    s.keepsBut (.logged :: shiftRegs) (s.light1 a n v).state :=
  ((s.shiftCpu_keeps a n v).mono (by decide)).trans ((State.ropEntry_keeps _ _ _).mono (by decide))

/-- Light source 2 changes the Shifter's data path. -/
theorem State.light2_keeps (s : State) (a : Nat) (n : PortWidth) (v : Half) :
    s.keepsBut shiftRegs (s.light2 a n v).state := by
  unfold State.light2
  split
  · exact s.keepsBut_refl _
  · exact s.keepsBut_refl _
  · exact s.shiftCpu_keeps a n v

/-- Each row of `exec` changes the fields `Instr.writes` names for it, row by row. -/
theorem exec_keeps {i : Instr} {s t : State} (e : exec i s = .next t) : s.keepsBut i.writes t := by
  cases i with
  | rd8 | rd16 | rd32 => exact finishRead_keeps (fun _ _ => memRead_keeps) e
  | wr8 | wr16 | wr32 => exact finishWrite_keeps (fun _ => memWrite_keeps) e
  | cfg => exact (s.keepsBut_setCfg _).out_next e
  | dispatch => exact s.dispatch_keeps.out_next e
  | reset => exact s.resetAll_keeps.out_next e
  | egcReinit | shReinit => exact s.reinit_keeps.out_next e
  | tileLoad => exact (s.keepsBut_setTile _).out_next e
  -- rows that only answer a value
  | ropNone | ropAnd | ropOr | ropXor | wm0 | wm1 | wm2 | wm3 | shDmask | egcFgc0 | egcFgc1 | egcFgc2 | egcFgc3
  | egcRlNone | egcropC0 | egcropF0 | egcropFC | egcrop0C => exact (s.keepsBut_refl []).out_next e
  -- rows that only answer a value, at an aligned address
  | pc98MswRd | pc98MswWr | pc98CharRd | pc98AttrRd | pc98UnknownRd | pc98AbsentRd | pc98AbsentWr | vopPassRd
  | vopTileCopyRd | vopTileMaskRd | egcLs0 | egcLs3 =>
    exact (s.keepsBut_refl []).out_next (aligned_next_iff.1 e).2
  | wmUnsup mode =>
    exact State.keepsBut.out_next (l := [.logged])
      (by rw [State.writeModeUnsup, State.logOnce_setLogged]; exact s.keepsBut_setLogged _) e
  | rm0 | rm1 => exact (s.latchLoad_keeps _).out_next e
  -- refused rows
  | unmappedRd | unmappedWr | textRd | textWr | cgaSnowTextRd | cgaSnowTextWr | herculesRd | herculesWr | tandyRd
  | tandyWr | pcjrRd | pcjrWr | amstradRd | amstradWr => cases e
  | unchainedRd w addr => exact (unchainedRead_keeps w addr s).out_next e
  | chainedVgaSlowRd w addr => exact (chainedVgaSlowRead_keeps w addr s).out_next e
  | chainedVgaEt4kSlowRd w addr => exact (chainedVgaEt4kSlowRead_keeps w addr s).out_next e
  | chainedEgaRd | chainedVgaRd | chainedVgaEt4kRd | linearRd => exact s.debitRead_keeps.out_next e
  | unchainedWr w addr data => exact (unchainedWrite_keeps w addr data s).out_next e
  | chainedVgaSlowWr w addr data => exact (chainedVgaSlowWrite_keeps w addr data s).out_next e
  | chainedVgaEt4kSlowWr w addr data => exact (chainedVgaEt4kSlowWrite_keeps w addr data s).out_next e
  | chainedEgaWr w addr data => exact (chainedEgaWrite_keeps w addr data s).out_next e
  | chainedVgaWr w addr data => exact (chainedVgaWrite_keeps w addr data s).out_next e
  | chainedVgaEt4kWr w addr data => exact (chainedVgaEt4kWrite_keeps w addr data s).out_next e
  | linearWr w addr data => exact (linearTagWrite_keeps w addr data s).out_next e
  | pc98Rd =>
    exact finishRead_keeps (fun _ _ h => (s.debitRead_keeps.mono (by decide)).trans
      ((decoderReads_keeps h).mono (l' := .cyclesLeft :: ([.tile, .egcLast] ++ shiftRegs)) (by decide))) e
  | pc98Wr =>
    exact finishWrite_keeps (fun _ h => (s.debitWrite_keeps.mono (by decide)).trans
      ((decoderWrites_keeps h).mono (l' := .cyclesLeft :: ([.vram, .tile, .logged] ++ shiftRegs)) (by decide))) e
  | pc98CharWr n addr v | pc98UnknownWr n addr v => exact (s.pwrite_keeps _ n v).out_next (aligned_next_iff.1 e).2
  | pc98AttrWr n addr v => exact (s.attrWrite_keeps _ n v).out_next (aligned_next_iff.1 e).2
  | pc98GraphicsRd n addr => exact (s.graphicsRead_keeps _ n).out_next (aligned_next_iff.1 e).2
  | pc98GraphicsWr n addr v => exact (s.graphicsWrite_keeps _ n v).out_next (aligned_next_iff.1 e).2
  | vopPassWr mode n off v => exact (s.pwrite_keeps _ n v).out_next (aligned_next_iff.1 e).2
  | vopTileCopyWr mode n => exact (s.tileCopyWrite_keeps _ n).out_next (aligned_next_iff.1 e).2
  | vopTileMaskWr mode n off v => exact (s.tileMaskWrite_keeps _ n v).out_next (aligned_next_iff.1 e).2
  | vopEgcRd mode n => exact (s.egcReadState_keeps _ n).out_next (aligned_next_iff.1 e).2
  | vopEgcWr mode n off v => exact (s.egcWrite_keeps _ n v).out_next (aligned_next_iff.1 e).2
  | shIn8 => exact (s.shiftIn8_keeps _ _).out_next e
  | shIn16 => exact (s.shiftIn16_keeps _).out_next e
  | shOut8 ln rec => exact (s.shiftOut8_keeps ln rec).out_next e
  | shOut16 => exact s.shiftOut16_keeps.out_next e
  | egcLs1 a n val => exact (s.light1_keeps a.toNat n val).out_next (aligned_next_iff.1 e).2
  | egcLs2 a n val => exact (s.light2_keeps a.toNat n val).out_next (aligned_next_iff.1 e).2
  | egcRlRead both a n =>
    cases both with
    | false => exact (s.tilesFromLast_keeps _ n).out_next (aligned_next_iff.1 e).2
    | true =>
      exact ((s.tilesFromLast_keeps _ n).trans (State.tilesFromVram_keeps _ _ n)).out_next (aligned_next_iff.1 e).2
  | egcRlWrite a n => exact (s.tilesFromVram_keeps _ n).out_next (aligned_next_iff.1 e).2
  | egcropPat code a =>
    obtain ⟨o, ho⟩ | ⟨o, ho⟩ := execEgcropPat_cases code a s
    · exact (s.keepsBut_refl []).out_next (ho.symm.trans e)
    · exact (s.ropStub_keeps code).out_next (ho.symm.trans e)
  | egcropStub code => exact (s.ropStub_keeps code).out_next e
  | dispUnmapped | dispUnchained | dispChainedEga | dispChainedVga | dispChainedVgaSlow | dispChainedVgaEt4k
  | dispChainedVgaEt4kSlow | dispLinear | dispPc98 | dispText | dispCgaSnowText | dispHercules | dispTandy | dispPcjr
  | dispAmstrad => exact (s.dispatchWith_keeps _).out_next e
  | winsel0 h | winsel1 h | winsel2 h | winsel3 h => exact (s.bindWindow_keeps h _).out_next e

/-- Settles O7: row by row, from the frames of the operations each row runs. -/
theorem execFrame : Obligations.ExecFrame := by
  unfold Obligations.ExecFrame
  exact fun _ _ _ => exec_keeps

end Sys2Proof.Machine
end

section
/-! The invariant: what keeps each of its parts, and that every row of `exec`, hence every step, keeps it. -/

namespace Sys2Proof.Machine

/-! ### The registers the invariant reads -/

/-- The fields of which the invariant speaks. -/
def invRegs : List Reg := [.plat, .vram, .sh, .buf, .logged]

/-- The invariant reads no field outside `invRegs`, so a change outside them keeps it. -/
theorem State.Inv.of_keeps {s t : State} {l : List Reg} (h : s.Inv) (hk : s.keepsBut l t)
    (hl : ∀ r ∈ invRegs, r ∉ l := by decide) : t.Inv := by
  have hplat : t.plat = s.plat := hk .plat (hl _ (by decide))
  have hvram : t.vram = s.vram := hk .vram (hl _ (by decide))
  have hsh : t.sh = s.sh := hk .sh (hl _ (by decide))
  have hbuf : t.buf = s.buf := hk .buf (hl _ (by decide))
  have hlogged : t.logged = s.logged := hk .logged (hl _ (by decide))
  obtain ⟨h1, h2, h3, h4, h5, h6⟩ := h
  constructor <;> simp only [hplat, hvram, hsh, hbuf, hlogged] <;> assumption

section
variable {s : State} (h : s.Inv)
include h

theorem State.Inv.setOut (o : Out) : (s.setOut o).Inv := h.of_keeps (s.keepsBut_setOut o)

theorem State.Inv.setSh {x : Shifter} (hx : x.Good) : (s.setSh x).Inv := { h with shifter := hx }

theorem State.Inv.putByte (o : Nat) (v : Byte) : (s.putByte o v).Inv :=
  { h with vramWf := State.putByte_wf h.vramWf o v, vramBelow := State.putByte_below h.vramBelow o v }

theorem State.Inv.putHalf (o : Nat) (v : Half) : (s.putHalf o v).Inv := (h.putByte _ _).putByte _ _

theorem State.Inv.putWord (o : Nat) (v : Word) : (s.putWord o v).Inv :=
  (((h.putByte _ _).putByte _ _).putByte _ _).putByte _ _

theorem State.Inv.vwrite (o : Nat) (w : Width) (v : Word) : (s.vwrite o w v).Inv := by
  cases w
  · exact h.putByte _ _
  · exact h.putHalf _ _
  · exact h.putWord _ _

theorem State.Inv.pwrite (o : Nat) (n : PortWidth) (v : Half) : (s.pwrite o n v).Inv := by
  cases n
  · exact h.putByte _ _
  · exact h.putHalf _ _

theorem State.Inv.logOnce (k : LogKind) (v : Byte) : (s.logOnce k v).Inv := by
  rw [State.logOnce_setLogged]
  exact { h with loggedOnce := State.logOnce_nodup h.loggedOnce k v }

theorem State.Inv.bufPut (i : Nat) (v : Byte) : (s.bufPut i v).Inv :=
  have hb : (s.bufPut i v).bufGood := State.bufGood.bufPut ⟨h.bufWf, h.bufBelow⟩ i v
  { h with bufWf := hb.1, bufBelow := hb.2 }

/-! ### Planar writes -/

theorem State.Inv.modeOperation (v : Byte) : (s.modeOperation v).2.Inv := by
  rw [State.modeOperation_setLogged]
  exact { h with loggedOnce := State.modeOperation_nodup h.loggedOnce v }

theorem State.Inv.planarWriteByte (idx : Nat) (v : Byte) (lanes : Word) : (s.planarWriteByte idx v lanes).Inv :=
  (h.modeOperation v).putWord _ _

theorem State.Inv.debitWrite : s.debitWrite.Inv := h.of_keeps s.debitWrite_keeps

theorem State.Inv.linearWrite (flat : Word → Nat) (place : Nat → Nat) (w : Width) (addr data : Word) :
    (linearWrite flat place w addr data s).Inv :=
  linearWrite_preserves State.Inv (fun _ o w v ht => ht.vwrite o w v) flat place w addr data s h

/-! ### The Shifter -/

theorem State.Inv.reinit : s.reinit.Inv := h.setSh (Shifter.fresh_good _)

theorem State.Inv.stage8 (q : Quad) : (s.stage8 q).Inv :=
  State.stage8_preserves State.Inv (fun _ i v ht => ht.bufPut i v) s q h

theorem State.Inv.stage16 (q : Quad) : (s.stage16 q).Inv :=
  State.stage16_preserves State.Inv (fun _ i v ht => ht.bufPut i v) s q h

theorem State.Inv.biAdv (n : Nat) : (s.biAdv n).Inv := h.setSh { h.shifter with bufi := advance_lt _ _ _ }

theorem State.Inv.boAdv (n : Nat) : (s.boAdv n).Inv := h.setSh { h.shifter with bufo := advance_lt _ _ _ }

theorem State.Inv.setMaskLane (ln : Bool) (m : Byte) : (s.setMaskLane ln m).Inv :=
  h.of_keeps (s.setMaskLane_keeps ln m)

theorem State.Inv.setSrcLane (ln : Bool) (f : Plane → Byte) : (s.setSrcLane ln f).Inv :=
  h.of_keeps (s.setSrcLane_keeps ln f)

/-- The destination phase only falls. -/
theorem State.Inv.setDstbit {d : Nat} (hd : d ≤ s.sh.dstbit) : (s.setSh { s.sh with dstbit := d }).Inv :=
  h.setSh { h.shifter with dstbit := Nat.lt_of_le_of_lt hd h.shifter.dstbit }

/-- The remaining count only falls. -/
theorem State.Inv.setRemain {r : Nat} (hr : r ≤ s.sh.remain) : (s.setSh { s.sh with remain := r }).Inv :=
  h.setSh { h.shifter with remain := Nat.le_trans hr h.shifter.remain }

/-- The count of staged bits has no bound. -/
theorem State.Inv.setLoad (n : Nat) : (s.setSh { s.sh with load := n }).Inv := h.setSh { h.shifter with }

theorem State.Inv.shiftIn8 (q : Quad) (odd : Bool) : (s.shiftIn8 q odd).Inv := by
  unfold State.shiftIn8
  have ht := h.stage8 q
  generalize s.stage8 q = t at ht
  have ht1 := ht.biAdv 1
  refine State.Inv.setMaskLane ?_ odd _
  split
  · dsimp only
    split
    · exact ht1.setSh { ht1.shifter with srcbit := Nat.lt_of_le_of_lt (Nat.sub_le _ _) ht1.shifter.srcbit }
    · exact ht1.setSh { ht1.shifter with srcbit := Nat.succ_pos 15 }
  · exact ht

theorem State.Inv.shiftIn16 (q : Quad) : (s.shiftIn16 q).Inv := by
  unfold State.shiftIn16
  have ht := h.stage16 q
  generalize s.stage16 q = t at ht
  refine State.Inv.of_keeps (l := [.srcMask]) ?_ (State.keepsBut_setSrcMask _ _)
  split
  · have ht2 : (if 8 ≤ (t.biAdv 2).sh.srcbit then (t.biAdv 2).boAdv 1 else t.biAdv 2).Inv := by
      split
      · exact (ht.biAdv 2).boAdv 1
      · exact ht.biAdv 2
    exact ht2.setSh { ht2.shifter with srcbit := Nat.succ_pos 15 }
  · exact ht

theorem State.Inv.twoByte (ln : Bool) : (s.twoByte ln).Inv := by
  unfold State.twoByte
  split
  · exact (h.boAdv 1).setSrcLane ln _
  · exact (h.setSrcLane ln _).boAdv 1

theorem State.Inv.outData (ln : Bool) : (s.outData ln).Inv := by
  unfold State.outData
  split
  · split
    · exact (h.setSrcLane ln _).setDstbit (Nat.zero_le _)
    · exact h.twoByte ln
  · have h0 := h.setDstbit (Nat.zero_le _)
    split
    · exact h0.twoByte ln
    · exact (h0.setSrcLane ln _).boAdv 1

theorem State.Inv.outLane (ln : Bool) : (s.outLane ln).Inv := by
  unfold State.outLane
  split
  · exact (h.setDstbit (Nat.sub_le _ _)).setMaskLane ln _
  · exact ((h.setMaskLane ln _).setRemain (Nat.sub_le _ _)).outData ln

/-- The reinitialisation that ends a transfer. -/
theorem State.Inv.reinit_ite (c : Prop) [Decidable c] : (if c then s.reinit else s).Inv := by
  split
  · exact h.reinit
  · exact h

theorem State.Inv.shiftOut8 (ln rec : Bool) : (s.shiftOut8 ln rec).Inv := by
  unfold State.shiftOut8
  split
  · exact h.outLane ln
  · split
    · exact h.setMaskLane ln _
    · exact ((h.setLoad _).outLane ln).reinit_ite _

theorem State.Inv.shiftOut16 : s.shiftOut16.Inv := by
  unfold State.shiftOut16
  split
  · exact h.of_keeps (s.keepsBut_setSrcMask _)
  · refine State.Inv.reinit_ite ?_ _
    have ht := h.setLoad (s.sh.load - (16 - s.sh.dstbit))
    split
    · exact (ht.shiftOut8 _ _).shiftOut8 _ _
    · exact (ht.shiftOut8 _ _).shiftOut8 _ _

theorem State.Inv.shiftThrough (n : PortWidth) (ln : Bool) (q : Quad) : (s.shiftThrough n ln q).Inv := by
  cases n
  · exact (h.shiftIn8 q ln).shiftOut8 ln false
  · exact (h.shiftIn16 q).shiftOut16

/-! ### EGC accesses -/

theorem State.Inv.ropStub (code : Byte) : (s.ropStub code).2.Inv := h.logOnce _ _

theorem State.Inv.ropEntry (code : Byte) (a : Nat) : (s.ropEntry code a).2.Inv := by
  unfold State.ropEntry
  split_ifs
  case neg => exact h.ropStub code
  all_goals exact h

theorem State.Inv.shiftCpu (a : Nat) (n : PortWidth) (v : Half) : (s.shiftCpu a n v).Inv := by
  unfold State.shiftCpu
  split
  · exact h.shiftThrough _ _ _
  · exact h

theorem State.Inv.light1 (a : Nat) (n : PortWidth) (v : Half) : (s.light1 a n v).state.Inv :=
  (h.shiftCpu a n v).ropEntry _ a

theorem State.Inv.light2 (a : Nat) (n : PortWidth) (v : Half) : (s.light2 a n v).state.Inv := by
  unfold State.light2
  split
  · exact h
  · exact h
  · exact h.shiftCpu a n v

theorem State.Inv.light (a : Nat) (n : PortWidth) (v : Half) : (s.light a n v).state.Inv := by
  unfold State.light
  split
  · exact h
  · exact h.light1 a n v
  · exact h.light2 a n v
  · exact h

theorem State.Inv.egcWrite (a : Nat) (n : PortWidth) (v : Half) : (s.egcWrite a n v).Inv := by
  have ht : (if s.cfg.egc.regload.getLsbD 1 then s.tilesFromVram a n else s).Inv := by
    split
    · exact h.of_keeps (s.tilesFromVram_keeps a n)
    · exact h
  exact State.writeBack_preserves State.Inv (fun _ o n v hu => hu.pwrite o n v) _ a n _ _ (ht.light a n v)

/-- An EGC read feeds the Shifter from VRAM unless `egc_shiftinput` selects the CPU (R304). -/
theorem State.Inv.feed (n : PortWidth) (ln : Bool) (q : Quad) :
    (if s.cfg.egc.shiftinput then s else s.shiftThrough n ln q).Inv := by
  split
  · exact h
  · exact h.shiftThrough n ln q

theorem State.Inv.egcReadState (off : Nat) (n : PortWidth) : (s.egcReadState off n).Inv := by
  unfold State.egcReadState
  have ht := h.of_keeps (s.snapshot_keeps (inPlane off) n)
  refine State.Inv.feed ?_ n _ _
  split
  · exact ht.of_keeps (State.tilesFromLast_keeps _ _ n)
  · exact ht

/-! ### Decoder accesses -/

theorem State.Inv.attrWrite (off : Nat) (n : PortWidth) (v : Half) : (s.attrWrite off n v).Inv := by
  cases n
  · simp only [State.attrWrite]
    split
    · exact h
    · exact h.putByte _ _
  · exact h.putHalf _ _

theorem State.Inv.replicate (n : PortWidth) (p : Plane) : (s.replicate n p).Inv := h.of_keeps (s.replicate_keeps n p)

theorem State.Inv.tileCopyPlane (a : Nat) (n : PortWidth) (p : Plane) : (s.tileCopyPlane a n p).Inv := by
  unfold State.tileCopyPlane
  split
  · exact (h.replicate n p).pwrite _ _ _
  · exact h

theorem State.Inv.tileMaskPlane (a : Nat) (n : PortWidth) (v : Half) (p : Plane) : (s.tileMaskPlane a n v p).Inv := by
  unfold State.tileMaskPlane
  split
  · exact (h.replicate n p).pwrite _ _ _
  · exact h

theorem State.Inv.tileCopyWrite (a : Nat) (n : PortWidth) : (s.tileCopyWrite a n).Inv :=
  (((h.tileCopyPlane a n 0).tileCopyPlane a n 1).tileCopyPlane a n 2).tileCopyPlane a n 3

theorem State.Inv.tileMaskWrite (a : Nat) (n : PortWidth) (v : Half) : (s.tileMaskWrite a n v).Inv :=
  (((h.tileMaskPlane a n v 0).tileMaskPlane a n v 1).tileMaskPlane a n v 2).tileMaskPlane a n v 3

theorem State.Inv.graphicsRead (off : Nat) (n : PortWidth) : (s.graphicsRead off n).2.Inv := by
  obtain e | e := s.graphicsRead_state off n <;> rw [e]
  · exact h
  · exact h.egcReadState off n

theorem State.Inv.graphicsWrite (off : Nat) (n : PortWidth) (v : Half) : (s.graphicsWrite off n v).Inv := by
  obtain e | e | e | e := s.graphicsWrite_cases off n v <;> rw [e]
  · exact h.pwrite _ n v
  · exact h.tileCopyWrite _ n
  · exact h.tileMaskWrite _ n v
  · exact h.egcWrite _ n v

end

theorem State.Inv.decoderRead {n : PortWidth} {addr : Word} {s t : State} {v : Half} (h : s.Inv)
    (e : decoderRead n addr s = .next (v, t)) : t.Inv := by
  obtain rfl | rfl := decoderRead_next e
  · exact h
  · exact h.egcReadState _ n

theorem State.Inv.decoderWrite {n : PortWidth} {addr : Word} {v : Half} {s t : State} (h : s.Inv)
    (e : decoderWrite n addr v s = .next t) : t.Inv := by
  obtain rfl | rfl | rfl | rfl := decoderWrite_next e
  · exact h
  · exact h.pwrite _ n v
  · exact h.attrWrite _ n v
  · exact h.graphicsWrite _ n v

theorem State.Inv.decoderReads {n : PortWidth} {k : Nat} {addr : Word} {s t : State} {v : Word} (h : s.Inv)
    (e : decoderReads n k addr s = .next (v, t)) : t.Inv :=
  decoderReads_preserves State.Inv n (fun _ _ _ _ => State.Inv.decoderRead) k addr s v t h e

theorem State.Inv.decoderWrites {n : PortWidth} {k : Nat} {addr data : Word} {s t : State} (h : s.Inv)
    (e : decoderWrites n k addr data s = .next t) : t.Inv :=
  decoderWrites_preserves State.Inv n (fun _ _ _ _ => State.Inv.decoderWrite) k addr data s t h e

/-! ### Deliveries to a handler, transactions -/

theorem State.Inv.writeBytes {f : Word → Byte → State → State} (hf : ∀ a b t, t.Inv → (f a b t).Inv) {s : State}
    (h : s.Inv) (n : Nat) (addr data : Word) : (writeBytes f n addr data s).Inv :=
  writeBytes_preserves State.Inv f hf n addr data s h

theorem State.Inv.serveRead {g : Tag} {w : Width} {addr : Word} {s t : State} {v : Word} (h : s.Inv)
    (e : serveRead g w addr s = .next (v, t)) : t.Inv := by
  by_cases hg : g = .pc98
  · subst hg
    exact (h.of_keeps s.debitRead_keeps).decoderReads e
  · exact h.of_keeps (serveRead_keeps_of_ne_pc98 hg e)

theorem State.Inv.serveWrite {g : Tag} {w : Width} {addr data : Word} {s t : State} (h : s.Inv)
    (e : serveWrite g w addr data s = .next t) : t.Inv := by
  cases g with
  | unmapped | text | cgaSnowText | hercules | tandy | pcjr | amstrad => cases e
  | pc98 => exact h.debitWrite.decoderWrites e
  | unchained | chainedVgaSlow | chainedVgaEt4kSlow =>
    obtain rfl := Host.Outcome.next.inj e
    exact h.debitWrite.writeBytes (fun _ _ _ hu => hu.planarWriteByte _ _ _) _ _ _
  | chainedEga | chainedVga | chainedVgaEt4k | linear =>
    obtain rfl := Host.Outcome.next.inj e
    exact h.debitWrite.linearWrite _ _ _ _ _

theorem State.Inv.memRead {w : Width} {addr : Word} {s t : State} {v : Word} (h : s.Inv)
    (e : memRead w addr s = .next (v, t)) : t.Inv :=
  memRead_preserves State.Inv (fun _ _ _ _ _ _ => State.Inv.serveRead) h e

theorem State.Inv.memWrite {w : Width} {addr data : Word} {s t : State} (h : s.Inv)
    (e : memWrite w addr data s = .next t) : t.Inv :=
  memWrite_preserves State.Inv (fun _ _ _ _ _ _ => State.Inv.serveWrite) h e

/-! ### Rows and steps -/

/-- Setting the port keeps the invariant of the state a row leads to. -/
theorem State.Inv.out_next {u t : State} {o : Out} (h : u.Inv) (e : (.next (u.setOut o) : Result) = .next t) : t.Inv :=
  Host.Outcome.next.inj e ▸ h.setOut o

theorem finishRead_inv {w : Width} {r : ReadResult} {t : State} (h : ∀ v u, r = .next (v, u) → u.Inv)
    (e : finishRead w r = .next t) : t.Inv := by
  obtain ⟨v, u, hu, rfl⟩ := finishRead_next_iff.1 e
  exact (h v u hu).setOut _

theorem finishWrite_inv {r : Result} {t : State} (h : ∀ u, r = .next u → u.Inv) (e : finishWrite r = .next t) :
    t.Inv := by
  obtain ⟨u, hu, rfl⟩ := finishWrite_next_iff.1 e
  exact (h u hu).setOut _

/-- RESET clears VRAM and the marks and reinitialises the Shifter; its dispatch touches the Binding only. -/
theorem State.Inv.resetAll {s : State} (h : s.Inv) : s.resetAll.Inv := by
  have hclear : (s.setVram []).Inv := { h with vramWf := rfl, vramBelow := rfl }
  have hdisp := hclear.reinit.of_keeps (State.dispatch_keeps _)
  exact { hdisp with loggedOnce := List.nodup_nil }

/-- Every row of `exec` keeps the invariant: the rows that change one of `invRegs` by the rule of their operation, the
others by their frame. -/
theorem State.Inv.exec {i : Instr} {s t : State} (h : s.Inv) (e : exec i s = .next t) : t.Inv := by
  cases i with
  | rd8 | rd16 | rd32 => exact finishRead_inv (fun _ _ => h.memRead) e
  | wr8 | wr16 | wr32 => exact finishWrite_inv (fun _ => h.memWrite) e
  | reset => exact h.resetAll.out_next e
  | egcReinit | shReinit => exact h.reinit.out_next e
  | wmUnsup mode => exact (h.logOnce .writeMode mode).out_next e
  | unchainedWr w addr data => exact finishWrite_inv (fun _ => h.serveWrite (g := .unchained)) e
  | chainedEgaWr w addr data => exact finishWrite_inv (fun _ => h.serveWrite (g := .chainedEga)) e
  | chainedVgaWr w addr data => exact finishWrite_inv (fun _ => h.serveWrite (g := .chainedVga)) e
  | chainedVgaSlowWr w addr data => exact finishWrite_inv (fun _ => h.serveWrite (g := .chainedVgaSlow)) e
  | chainedVgaEt4kWr w addr data => exact finishWrite_inv (fun _ => h.serveWrite (g := .chainedVgaEt4k)) e
  | chainedVgaEt4kSlowWr w addr data => exact finishWrite_inv (fun _ => h.serveWrite (g := .chainedVgaEt4kSlow)) e
  | linearWr w addr data => exact finishWrite_inv (fun _ => h.serveWrite (g := .linear)) e
  | pc98Rd => exact finishRead_inv (fun _ _ => (h.of_keeps s.debitRead_keeps).decoderReads) e
  | pc98Wr => exact finishWrite_inv (fun _ => h.debitWrite.decoderWrites) e
  | pc98CharWr n addr v | pc98UnknownWr n addr v => exact (h.pwrite _ n v).out_next (aligned_next_iff.1 e).2
  | pc98AttrWr n addr v => exact (h.attrWrite _ n v).out_next (aligned_next_iff.1 e).2
  | pc98GraphicsRd n => exact (h.graphicsRead _ n).out_next (aligned_next_iff.1 e).2
  | pc98GraphicsWr n addr v => exact (h.graphicsWrite _ n v).out_next (aligned_next_iff.1 e).2
  | vopPassWr mode n off v => exact (h.pwrite _ n v).out_next (aligned_next_iff.1 e).2
  | vopTileCopyWr mode n => exact (h.tileCopyWrite _ n).out_next (aligned_next_iff.1 e).2
  | vopTileMaskWr mode n off v => exact (h.tileMaskWrite _ n v).out_next (aligned_next_iff.1 e).2
  | vopEgcRd mode n => exact (h.egcReadState _ n).out_next (aligned_next_iff.1 e).2
  | vopEgcWr mode n off v => exact (h.egcWrite _ n v).out_next (aligned_next_iff.1 e).2
  | shIn8 => exact (h.shiftIn8 _ _).out_next e
  | shIn16 => exact (h.shiftIn16 _).out_next e
  | shOut8 ln rec => exact (h.shiftOut8 ln rec).out_next e
  | shOut16 => exact h.shiftOut16.out_next e
  | egcLs1 a n val => exact (h.light1 a.toNat n val).out_next (aligned_next_iff.1 e).2
  | egcLs2 a n val => exact (h.light2 a.toNat n val).out_next (aligned_next_iff.1 e).2
  | egcropPat code a =>
    obtain ⟨o, ho⟩ | ⟨o, ho⟩ := execEgcropPat_cases code a s
    · exact h.out_next (ho.symm.trans e)
    · exact (h.ropStub code).out_next (ho.symm.trans e)
  | egcropStub code => exact (h.ropStub code).out_next e
  | _ => exact h.of_keeps (exec_keeps e) (by simp [Instr.writes, invRegs])

/-- Settles O6: by the two ways a step goes on; the queue is no part of the invariant, and every row keeps it. -/
theorem stepKeepsInv : Obligations.StepKeepsInv := by
  unfold Obligations.StepKeepsInv
  intro s t h e
  obtain ⟨-, rfl⟩ | ⟨x, rest, i, -, -, e⟩ := step_next e
  · exact h
  · exact (h.of_keeps (s.keepsBut_setInput rest)).exec e

end Sys2Proof.Machine
end

section
/-! The bus: a transaction under one binding is one delivery to a handler, and a delivery is that handler's row. -/

namespace Sys2Proof.Machine

/-! ### Values that agree on their low bits -/

/-- Two bus values agree on their `m` low bits. -/
def agreeBelow (m : Nat) (d e : Word) : Prop := ∀ i, i < m → d.getLsbD i = e.getLsbD i

theorem agreeBelow.mono {m k : Nat} {d e : Word} (h : agreeBelow m d e) (hk : k ≤ m) : agreeBelow k d e :=
  fun i hi => h i (Nat.lt_of_lt_of_le hi hk)

theorem agreeBelow.setWidth {m k : Nat} {d e : Word} (h : agreeBelow m d e) (hk : k ≤ m) :
    d.setWidth k = e.setWidth k := by
  apply BitVec.eq_of_getLsbD_eq
  intro i hi
  simp only [BitVec.getLsbD_setWidth, h i (by omega)]

theorem agreeBelow.shift {m k : Nat} {d e : Word} (h : agreeBelow (k + m) d e) : agreeBelow m (d >>> k) (e >>> k) := by
  intro i hi
  simp only [BitVec.getLsbD_ushiftRight]
  exact h _ (by omega)

/-- A decomposed write of `n` bytes reads the `8n` low bits of its value only (R75). -/
theorem writeBytes_congr (f : Word → Byte → State → State) : ∀ (n : Nat) (addr d e : Word) (s : State),
    agreeBelow (8 * n) d e → writeBytes f n addr d s = writeBytes f n addr e s
  | 0, _, _, _, _, _ => rfl
  | n + 1, addr, d, e, s, h => by
    rw [writeBytes, writeBytes, h.setWidth (k := 8) (by omega)]
    exact writeBytes_congr f n _ _ _ _ (agreeBelow.shift (h.mono (by omega)))

/-- A byte-linear write reads as many low bits of its value as its width has. -/
theorem linearWrite_congr (flat : Word → Nat) (place : Nat → Nat) (w : Width) (addr : Word) {d e : Word} (s : State)
    (h : agreeBelow (8 * widthBytes w) d e) :
    linearWrite flat place w addr d s = linearWrite flat place w addr e s := by
  unfold linearWrite
  split
  · cases w with
    | byte => simp only [State.vwrite, h.setWidth (k := 8) (by decide)]
    | word => simp only [State.vwrite, h.setWidth (k := 16) (by decide)]
    | dword => rw [← BitVec.setWidth_eq d, ← BitVec.setWidth_eq e, h.setWidth (k := 32) (by decide)]
  · exact writeBytes_congr _ _ _ _ _ _ h

theorem cutTo_congr {n : PortWidth} {d e : Word} (h : agreeBelow (8 * portBytes n) d e) :
    cutTo n (d.setWidth 16) = cutTo n (e.setWidth 16) := by
  cases n with
  | word => exact h.setWidth (by decide)
  | byte =>
    have hcut : ∀ x : Word, (x.setWidth 16).extractLsb' 0 8 = x.setWidth 8 := fun x => by
      apply BitVec.eq_of_getLsbD_eq
      intro i hi
      simp [hi, show i < 16 by omega, -BitVec.getLsbD_eq_getElem]
    simp only [cutTo, hcut, h.setWidth (k := 8) (by decide)]

/-- `k` decoder writes read the low bits of the value they carry only (R77). -/
theorem decoderWrites_congr (n : PortWidth) : ∀ (k : Nat) (addr d e : Word) (s : State),
    agreeBelow (8 * portBytes n * k) d e → decoderWrites n k addr d s = decoderWrites n k addr e s
  | 0, _, _, _, _, _ => rfl
  | k + 1, addr, d, e, s, h => by
    rw [Nat.mul_succ, Nat.add_comm] at h
    have ih := fun t => decoderWrites_congr n k (addr + BitVec.ofNat 32 (portBytes n)) _ _ t h.shift
    simp only [decoderWrites, cutTo_congr (h.mono (Nat.le_add_right _ _)), ih]

/-- The wrapper's accesses cover the bytes of the transaction (R77). -/
theorem wrapperSplit_bytes (w : Width) (addr : Word) :
    portBytes (wrapperSplit w addr).1 * (wrapperSplit w addr).2 = widthBytes w := by
  cases w with
  | byte => rfl
  | word | dword =>
    simp only [wrapperSplit]
    split
    · rfl
    · rfl

/-- A delivery reads as many low bits of its value as the transaction has. -/
theorem serveWrite_congr (h : Tag) (w : Width) (addr : Word) {d e : Word} (s : State)
    (hde : agreeBelow (8 * widthBytes w) d e) : serveWrite h w addr d s = serveWrite h w addr e s := by
  cases h with
  | unmapped | text | cgaSnowText | hercules | tandy | pcjr | amstrad => rfl
  | unchained | chainedVgaSlow | chainedVgaEt4kSlow => exact congrArg _ (writeBytes_congr _ _ _ _ _ _ hde)
  | chainedEga | chainedVga | chainedVgaEt4k | linear => exact congrArg _ (linearWrite_congr _ _ _ _ _ hde)
  | pc98 =>
    rw [← wrapperSplit_bytes w addr, ← Nat.mul_assoc] at hde
    exact decoderWrites_congr _ _ _ _ _ _ hde

/-! ### Rows as deliveries -/

/-- A word at an even address, like a byte or a doubleword anywhere, is split alike by the wrapper and by the direct row
(R77, log entry 20). -/
theorem directSplit_eq_wrapperSplit {w : Width} {addr : Word} (h : w.direct addr) :
    directSplit w addr = wrapperSplit w addr := by
  cases w with
  | byte | dword => rfl
  | word =>
    have heven : addr.toNat % 2 = 0 := h.resolve_left fun hw => hw rfl
    simp [directSplit, wrapperSplit, heven]

/-- The read row of a tag is one delivery to its handler. -/
theorem exec_busRd {h : Tag} {w : Width} {addr : Word} (s : State) (hd : h = .pc98 → w.direct addr) :
    exec (Instr.busRd w addr h) s = finishRead w (serveRead h w addr s) := by
  cases h with
  | pc98 => simp only [Instr.busRd, exec, execPc98Rd, directSplit_eq_wrapperSplit (hd rfl), serveRead, pc98Read]
  | _ => rfl

/-- The write row of a tag is one delivery to its handler. -/
theorem exec_busWr {h : Tag} {w : Width} {addr : Word} (data : Word) (s : State) (hd : h = .pc98 → w.direct addr) :
    exec (Instr.busWr w addr data h) s = finishWrite (serveWrite h w addr data s) := by
  cases h with
  | pc98 => simp only [Instr.busWr, exec, execPc98Wr, directSplit_eq_wrapperSplit (hd rfl), serveWrite, pc98Write]
  | _ => rfl

theorem exec_rdRow (w : Width) (addr : Word) (s : State) :
    exec (w.rdRow addr) s = finishRead w (memRead w addr s) := by cases w <;> rfl

/-- The value a transaction row carries: the data cut to the transaction's width (R11, R101). -/
def rowData (w : Width) (data : Word) : Word :=
  match w with
  | .byte => (data.setWidth 8).setWidth 32
  | .word => (data.setWidth 16).setWidth 32
  | .dword => data

theorem rowData_agree (w : Width) (data : Word) : agreeBelow (8 * widthBytes w) (rowData w data) data := by
  intro i hi
  cases w with
  | byte | word =>
    simp only [widthBytes] at hi
    simp only [rowData, BitVec.getLsbD_setWidth, hi, show i < 32 by omega, decide_true, Bool.true_and]
  | dword => rfl

theorem exec_wrRow (w : Width) (addr data : Word) (s : State) :
    exec (w.wrRow addr data) s = finishWrite (memWrite w addr (rowData w data) s) := by cases w <;> rfl

/-! ### One binding, one delivery -/

/-- Under one binding a read is one delivery to the handler at its first byte (R202). -/
theorem memRead_of_sameBinding {s : State} {w : Width} {addr : Word}
    (h : s.sameBinding addr (addr + BitVec.ofNat 32 (widthBytes w - 1)) = true) :
    memRead w addr s = serveRead (s.handlerAt addr) w addr s := by
  simp only [memRead, State.busSplit, h, if_true, readParts]
  cases serveRead (s.handlerAt addr) w addr s <;> simp [andThen]

/-- Under one binding a write is one delivery to the handler at its first byte (R202). -/
theorem memWrite_of_sameBinding {s : State} {w : Width} {addr : Word} (data : Word)
    (h : s.sameBinding addr (addr + BitVec.ofNat 32 (widthBytes w - 1)) = true) :
    memWrite w addr data s = serveWrite (s.handlerAt addr) w addr data s := by
  simp only [memWrite, State.busSplit, h, if_true, writeParts]
  cases serveWrite (s.handlerAt addr) w addr data s <;> simp [andThen]

/-- Settles O28: the transaction is one delivery, and so is the row of the bound tag; a write row's value agrees with the
transaction's on the bits the delivery reads. -/
theorem transactionsServed : Obligations.TransactionsServed := by
  unfold Obligations.TransactionsServed
  intro s w addr data h hsame hdirect
  constructor
  · rw [exec_rdRow, exec_busRd s hdirect, memRead_of_sameBinding hsame]
  · rw [exec_wrRow, exec_busWr data s hdirect, memWrite_of_sameBinding _ hsame,
      serveWrite_congr h w addr s (rowData_agree w data)]

end Sys2Proof.Machine
end

section
/-! RESET and the reset state (R46, R350): what RESET leaves in every field, the reset state as its result, and the
invariant of that state. -/

namespace Sys2Proof.Machine

/-! ### RESET, field by field -/

theorem State.bindLfb_of_none {s : State} (h : s.plat.lfb = none) : s.bindLfb = s := by
  simp only [State.bindLfb, h]

theorem State.dispatchWith_setBinding (s : State) (h : Tag) :
    s.dispatchWith h = s.setBinding (s.dispatchWith h).binding := by
  rw [State.dispatchWith, State.bindLfb_setBinding, State.bindTag_setBinding]
  rfl

/-- The Binding that Dispatch computes depends on no register that RESET writes before it. -/
theorem State.dispatchWith_binding_setVram_setSh (s : State) (m : Memory) (x : Shifter) (h : Tag) :
    (((s.setVram m).setSh x).dispatchWith h).binding = (s.dispatchWith h).binding := by
  have hTag : ((s.setVram m).setSh x).latchBanks.bindTag h = ((s.latchBanks.bindTag h).setVram m).setSh x := by
    have hmachine : ((s.setVram m).setSh x).latchBanks.plat.machine = s.latchBanks.plat.machine := rfl
    cases h with
    | text => simp only [State.bindTag, hmachine]; split <;> rfl
    | _ => rfl
  rw [State.dispatchWith, hTag, State.dispatchWith]
  simp only [State.bindLfb, State.setSh_plat, State.setVram_plat]
  split <;> rfl

/-- RESET's answer as one update: VRAM and marks empty, the Shifter loaded from the configuration, the Binding that
Dispatch computes, nothing in the port (R350). -/
theorem exec_reset (s : State) :
    exec .reset s = .next { s with
      vram := [], sh := Shifter.fresh s.cfg.egc, binding := s.dispatch.binding, logged := [], out := .none } := by
  have hdisp : (s.setVram []).reinit.dispatch = (s.setVram []).reinit.setBinding s.dispatch.binding := by
    rw [State.dispatch, State.dispatchWith_setBinding, State.reinit, State.dispatchWith_binding_setVram_setSh]
    rfl
  show Host.Outcome.next ((((s.setVram []).reinit.dispatch).setLogged []).setOut .none) = _
  rw [hdisp]
  rfl

/-! ### The reset configuration -/

@[simp] theorem State.blank_plat (p : Platform) (c : ExtConfig) : (State.blank p c).plat = p := rfl
@[simp] theorem State.blank_cfg (p : Platform) (c : ExtConfig) : (State.blank p c).cfg = c := rfl

/-- Without a linear framebuffer window, dispatching `UNCHAINED` binds the selected legacy window and nothing else, next
to the bank latch (R199, R200). -/
theorem State.dispatchWith_unchained_binding {s : State} {k : Fin 4} (h : s.plat.lfb = none)
    (hk : s.cfg.disp.windowSelect.toFin = k) :
    (s.dispatchWith .unchained).binding =
      { s.latchBanks.binding with
        bound := windowRanges s.plat .unchained k [], pageBase := s.plat.winBase[k], pageMask := winMask k } := by
  subst hk
  rw [State.dispatchWith, State.bindLfb_of_none (s := s.latchBanks.bindTag .unchained) h]
  rfl

/-- The reset configuration is unchained EGA on an EGA/VGA machine (R195). -/
theorem selectHandler_reset : selectHandler Config.platform ExtConfig.reset = .unchained := rfl

/-- With window 1 selected, window 0 overlaps it and the others lie beside it; all three are unmapped (R200). -/
theorem windowRanges_reset :
    windowRanges Config.platform .unchained 1 [] =
      [⟨0xA0, 16, .unchained⟩, ⟨0xA0, 32, .unmapped⟩, ⟨0xB0, 8, .unmapped⟩, ⟨0xB8, 8, .unmapped⟩] := by decide

theorem dispatch_binding_reset :
    (State.blank Config.platform ExtConfig.reset).dispatch.binding = State.reset.binding := by
  rw [State.dispatch, State.blank_plat, State.blank_cfg, selectHandler_reset,
    State.dispatchWith_unchained_binding (k := 1) rfl rfl, State.blank_plat, windowRanges_reset]
  rfl

/-- Both phases 0, the length field 15: no shift, and 16 bits remain (R250). -/
theorem Shifter.fresh_reset : Shifter.fresh ExtConfig.reset.egc = State.reset.sh := by decide

/-- Settles O10: RESET's update on the blank machine, with the Shifter and the Binding of the reset configuration. -/
theorem resetStateIsAfterReset : Obligations.ResetStateIsAfterReset := by
  unfold Obligations.ResetStateIsAfterReset
  rw [exec_reset, dispatch_binding_reset, State.blank_cfg, Shifter.fresh_reset]
  rfl

/-! ### The invariant at reset -/

/-- A machine given parameters and configuration only meets the invariant, whatever they are. -/
theorem State.blank_inv (p : Platform) (c : ExtConfig) : (State.blank p c).Inv where
  vramWf := rfl
  vramBelow := rfl
  bufWf := rfl
  bufBelow := rfl
  shifter := by constructor <;> simp [State.blank]
  loggedOnce := List.nodup_nil

/-- Settles O5: the blank machine meets the invariant, RESET keeps it, and RESET leads to the reset state. -/
theorem invAtReset : Obligations.InvAtReset := by
  unfold Obligations.InvAtReset
  exact (State.blank_inv _ _).exec resetStateIsAfterReset

end Sys2Proof.Machine
end

section
/-! The alignment contract of the PC-98 decoder (R74, R210, R328). -/

namespace Sys2Proof.Machine

/-- A width-2 access at an odd address or offset ends in the contract violation, whatever it would have answered. -/
theorem aligned_of_odd {α : Type} {x : Nat} (h : x % 2 = 1) (r : Host.Outcome α Fault Refusal) :
    aligned .word x r = .fault .contractViolationPc98Align := by
  rw [aligned, (misaligned_iff .word x).2 ⟨rfl, h⟩, if_pos rfl]

theorem execPc98Rd_odd {addr : Word} (h : addr.toNat % 2 = 1) (s : State) :
    execPc98Rd .word addr s = .fault .contractViolationPc98Align := by
  simp only [execPc98Rd, directSplit, decoderReads, decoderRead, aligned_of_odd h]
  rfl

theorem execPc98Wr_odd {addr : Word} (h : addr.toNat % 2 = 1) (data : Word) (s : State) :
    execPc98Wr .word addr data s = .fault .contractViolationPc98Align := by
  simp only [execPc98Wr, directSplit, decoderWrites, decoderWrite, aligned_of_odd h]
  rfl

/-- Settles O32: the two rows of tag `PC98` reach the check in their one decoder access, every other row begins with it, at
its address, its offset or its in-plane offset. -/
theorem misalignedDecoderAccess : Obligations.MisalignedDecoderAccess := by
  unfold Obligations.MisalignedDecoderAccess
  intro s addr d off a v m1 m2 m3 both haddr hoff ha
  have byAddr (r : Result) := aligned_of_odd haddr r
  have byOff (r : Result) := aligned_of_odd hoff r
  have byPlane (r : Result) := aligned_of_odd ha r
  simp only [List.forall_mem_cons]
  refine ⟨execPc98Rd_odd haddr s, execPc98Wr_odd haddr d s, ?_⟩
  -- the REGION rows
  refine ⟨byAddr _, byAddr _, byAddr _, byAddr _, byAddr _, byAddr _, byAddr _, byAddr _, byAddr _, byAddr _, byAddr _,
    byAddr _, ?_⟩
  -- the VOP rows
  refine ⟨byOff _, byOff _, byOff _, byOff _, byOff _, byOff _, byOff _, byOff _, ?_⟩
  -- the LSRC and REGLOAD rows
  exact ⟨byPlane _, byPlane _, byPlane _, byPlane _, byPlane _, byPlane _, by simp⟩

end Sys2Proof.Machine
end

section
/-! The two fields no access reads: the budget of R370 and the model's own output port. An operation run with other values
in them does the same and leaves those values. -/

namespace Sys2Proof.Machine

/-- `s` with another budget and another value at the output port. -/
def State.withPort (s : State) (c : Int) (o : Out) : State := (s.setCyclesLeft c).setOut o

section
variable (s : State) (c : Int) (o : Out)

@[simp] theorem State.withPort_plat : (s.withPort c o).plat = s.plat := rfl
@[simp] theorem State.withPort_cfg : (s.withPort c o).cfg = s.cfg := rfl
@[simp] theorem State.withPort_cyclesLeft : (s.withPort c o).cyclesLeft = c := rfl
@[simp] theorem State.withPort_out : (s.withPort c o).out = o := rfl

@[simp] theorem State.withPort_withPort (c' : Int) (o' : Out) : (s.withPort c o).withPort c' o' = s.withPort c' o' := rfl
@[simp] theorem State.setOut_withPort (o' : Out) : (s.withPort c o).setOut o' = s.withPort c o' := rfl
@[simp] theorem State.setCyclesLeft_withPort (c' : Int) : (s.withPort c o).setCyclesLeft c' = s.withPort c' o := rfl

/-- A debit is a change of the budget. -/
theorem State.debitRead_eq_withPort : s.debitRead = s.withPort (s.cyclesLeft - s.plat.readDelay) s.out := rfl

theorem State.debitWrite_eq_withPort : s.debitWrite = s.withPort (s.cyclesLeft - s.plat.writeDelay) s.out := rfl

/-- A branch on a condition that says the same with or without the change. -/
theorem State.ite_withPort {s t s' t' : State} {c : Int} {o : Out} {p q : Prop} {_ : Decidable p} {_ : Decidable q}
    (h : p ↔ q) (hs : s' = s.withPort c o) (ht : t' = t.withPort c o) :
    (if p then s' else t') = (if q then s else t).withPort c o := by
  subst hs ht
  by_cases hq : q
  · rw [if_pos hq, if_pos (h.2 hq)]
  · rw [if_neg hq, if_neg (mt h.1 hq)]

/-- What an operation's middle leaves, its end goes on from. -/
theorem State.withPort_congr {c : Int} {o : Out} {t t' : State} (f : State → State)
    (hf : ∀ u : State, f (u.withPort c o) = (f u).withPort c o) (h : t' = t.withPort c o) :
    f t' = (f t).withPort c o := by rw [h, hf]

/-! ### VRAM, diagnostics -/

theorem State.pwrite_withPort (i : Nat) (n : PortWidth) (v : Half) :
    (s.withPort c o).pwrite i n v = (s.pwrite i n v).withPort c o := by cases n <;> rfl

theorem State.logOnce_withPort (k : LogKind) (v : Byte) :
    (s.withPort c o).logOnce k v = (s.logOnce k v).withPort c o := State.ite_withPort .rfl rfl rfl

/-! ### The planar handlers -/

theorem State.planarReadByte_withPort (i : Nat) (raw : Bool) (p : Plane) :
    (s.withPort c o).planarReadByte i raw p =
      ((s.planarReadByte i raw p).1, (s.planarReadByte i raw p).2.withPort c o) := by
  unfold State.planarReadByte
  rw [State.withPort_cfg]
  split <;> rfl

theorem State.modeOperation_withPort (v : Byte) :
    (s.withPort c o).modeOperation v = ((s.modeOperation v).1, (s.modeOperation v).2.withPort c o) := by
  unfold State.modeOperation
  rw [State.withPort_cfg]
  split
  case h_5 => exact congrArg _ (s.logOnce_withPort c o _ _)
  all_goals rfl

theorem State.planarWriteByte_withPort (i : Nat) (v : Byte) (lanes : Word) :
    (s.withPort c o).planarWriteByte i v lanes = (s.planarWriteByte i v lanes).withPort c o := by
  simp only [State.planarWriteByte, State.modeOperation_withPort]
  rfl

/-! ### The Shifter -/

theorem State.stage8_withPort (q : Quad) : (s.withPort c o).stage8 q = (s.stage8 q).withPort c o := rfl

theorem State.stage16_withPort (q : Quad) : (s.withPort c o).stage16 q = (s.stage16 q).withPort c o := rfl

theorem State.shiftIn8_withPort (q : Quad) (odd : Bool) :
    (s.withPort c o).shiftIn8 q odd = (s.shiftIn8 q odd).withPort c o := by
  refine State.withPort_congr (fun t => t.setMaskLane odd 0xFF#8) (fun _ => rfl) ?_
  rw [State.stage8_withPort]
  exact State.ite_withPort .rfl (State.ite_withPort .rfl rfl rfl) rfl

theorem State.shiftIn16_withPort (q : Quad) : (s.withPort c o).shiftIn16 q = (s.shiftIn16 q).withPort c o := by
  refine State.withPort_congr (fun t => t.setSrcMask 0xFFFF#16) (fun _ => rfl) ?_
  rw [State.stage16_withPort]
  refine State.ite_withPort .rfl ?_ rfl
  exact State.withPort_congr (fun t => t.setSh { t.sh with load := t.sh.load + (16 - t.sh.srcbit), srcbit := 0 })
    (fun _ => rfl) (State.ite_withPort .rfl rfl rfl)

theorem State.twoByte_withPort (ln : Bool) : (s.withPort c o).twoByte ln = (s.twoByte ln).withPort c o :=
  State.ite_withPort .rfl rfl rfl

theorem State.outData_withPort (ln : Bool) : (s.withPort c o).outData ln = (s.outData ln).withPort c o :=
  State.ite_withPort .rfl (State.ite_withPort .rfl rfl (s.twoByte_withPort c o ln))
    (State.ite_withPort .rfl ((s.setSh { s.sh with dstbit := 0 }).twoByte_withPort c o ln) rfl)

theorem State.outLane_withPort (ln : Bool) : (s.withPort c o).outLane ln = (s.outLane ln).withPort c o := by
  refine State.ite_withPort .rfl rfl ?_
  dsimp only
  exact State.outData_withPort ((s.setMaskLane ln (dstbitMask s.sh)).setSh _) c o ln

theorem State.shiftOut8_withPort (ln rec : Bool) :
    (s.withPort c o).shiftOut8 ln rec = (s.shiftOut8 ln rec).withPort c o := by
  refine State.ite_withPort .rfl (s.outLane_withPort c o ln) (State.ite_withPort .rfl rfl ?_)
  exact State.withPort_congr (fun t => if !decide (8 ≤ s.sh.dstbit) && t.sh.remain == 0 then t.reinit else t)
    (fun _ => State.ite_withPort .rfl rfl rfl) (State.outLane_withPort (s.setSh _) c o ln)

theorem State.shiftOut16_withPort : (s.withPort c o).shiftOut16 = s.shiftOut16.withPort c o := by
  have hlanes (t : State) (ln ln' : Bool) : ((t.withPort c o).shiftOut8 ln true).shiftOut8 ln' true =
      ((t.shiftOut8 ln true).shiftOut8 ln' true).withPort c o := by simp only [State.shiftOut8_withPort]
  refine State.ite_withPort .rfl rfl ?_
  exact State.withPort_congr (fun t => if t.sh.remain = 0 then t.reinit else t)
    (fun _ => State.ite_withPort .rfl rfl rfl)
    (State.ite_withPort .rfl (hlanes (s.setSh _) true false) (hlanes (s.setSh _) false true))

theorem State.shiftThrough_withPort (n : PortWidth) (ln : Bool) (q : Quad) :
    (s.withPort c o).shiftThrough n ln q = (s.shiftThrough n ln q).withPort c o := by
  cases n with
  | byte => simp only [State.shiftThrough, State.shiftIn8_withPort, State.shiftOut8_withPort]
  | word => simp only [State.shiftThrough, State.shiftIn16_withPort, State.shiftOut16_withPort]

/-! ### The EGC -/

theorem State.planeQuad_withPort (a : Nat) (n : PortWidth) : (s.withPort c o).planeQuad a n = s.planeQuad a n := by
  cases n <;> rfl

theorem State.tilesFromVram_withPort (a : Nat) (n : PortWidth) :
    (s.withPort c o).tilesFromVram a n = (s.tilesFromVram a n).withPort c o := by
  simp only [State.tilesFromVram, State.planeQuad_withPort]
  rfl

theorem State.snapshot_withPort (a : Nat) (n : PortWidth) :
    (s.withPort c o).snapshot a n = (s.snapshot a n).withPort c o := by
  simp only [State.snapshot, State.planeQuad_withPort]
  rfl

theorem State.shiftCpu_withPort (a : Nat) (n : PortWidth) (v : Half) :
    (s.withPort c o).shiftCpu a n v = (s.shiftCpu a n v).withPort c o :=
  State.ite_withPort .rfl (s.shiftThrough_withPort c o n _ _) rfl

theorem State.ropEntry_withPort (code : Byte) (a : Nat) :
    (s.withPort c o).ropEntry code a = ((s.ropEntry code a).1, (s.ropEntry code a).2.withPort c o) := by
  unfold State.ropEntry
  rw [State.withPort_plat]
  split_ifs
  case neg => exact congrArg _ (s.logOnce_withPort c o _ _)
  all_goals rfl

theorem State.light_withPort (a : Nat) (n : PortWidth) (v : Half) :
    (s.withPort c o).light a n v =
      ⟨(s.light a n v).data, (s.light a n v).mask, (s.light a n v).state.withPort c o⟩ := by
  unfold State.light
  rw [State.withPort_cfg]
  split
  case h_2 =>
    simp only [State.light1, State.shiftCpu_withPort, State.withPort_cfg, State.ropEntry_withPort]
    rfl
  case h_3 =>
    simp only [State.light2, State.shiftCpu_withPort, State.withPort_cfg]
    split <;> rfl
  all_goals rfl

theorem State.pread_withPort (i : Nat) (n : PortWidth) : (s.withPort c o).pread i n = s.pread i n := by cases n <;> rfl

theorem State.writeBackPlane_withPort (a : Nat) (n : PortWidth) (d : Quad) (acc : Half) (p : Plane) :
    (s.withPort c o).writeBackPlane a n d acc p = (s.writeBackPlane a n d acc p).withPort c o := by
  refine State.ite_withPort .rfl rfl ?_
  rw [State.pwrite_withPort, State.pread_withPort]
  rfl

/-- What commutes with the change for one plane commutes for the four. -/
theorem State.planes_withPort (f : State → Plane → State)
    (hf : ∀ (t : State) p, f (t.withPort c o) p = (f t p).withPort c o) :
    planes.foldl f (s.withPort c o) = (planes.foldl f s).withPort c o := by
  simp only [planes, List.foldl, hf]

theorem State.egcWrite_withPort (a : Nat) (n : PortWidth) (v : Half) :
    (s.withPort c o).egcWrite a n v = (s.egcWrite a n v).withPort c o := by
  have ht : (if (s.withPort c o).cfg.egc.regload.getLsbD 1 then (s.withPort c o).tilesFromVram a n else s.withPort c o) =
      (if s.cfg.egc.regload.getLsbD 1 then s.tilesFromVram a n else s).withPort c o :=
    State.ite_withPort .rfl (s.tilesFromVram_withPort c o a n) rfl
  simp only [State.egcWrite, ht, State.light_withPort]
  exact State.ite_withPort .rfl rfl
    (State.planes_withPort _ c o _ fun t p => t.writeBackPlane_withPort c o a n _ _ p)

theorem State.egcRead_withPort (off : Nat) (n : PortWidth) :
    (s.withPort c o).egcRead off n = ((s.egcRead off n).1, (s.egcRead off n).2.withPort c o) := by
  have hs : (s.withPort c o).egcReadState off n = (s.egcReadState off n).withPort c o := by
    simp only [State.egcReadState, State.snapshot_withPort]
    generalize s.snapshot (inPlane off) n = t
    have hu : (if (t.withPort c o).cfg.egc.regload.getLsbD 0 then (t.withPort c o).tilesFromLast (inPlane off) n
          else t.withPort c o) =
        (if t.cfg.egc.regload.getLsbD 0 then t.tilesFromLast (inPlane off) n else t).withPort c o :=
      State.ite_withPort .rfl rfl rfl
    rw [hu]
    exact State.ite_withPort .rfl rfl (State.shiftThrough_withPort _ c o n _ _)
  simp only [State.egcRead, hs, State.egcReadValue, State.pread_withPort]
  rfl

/-! ### The PC-98 decoder -/

theorem State.replicate_withPort (n : PortWidth) (p : Plane) :
    (s.withPort c o).replicate n p = (s.replicate n p).withPort c o := by cases n <;> rfl

theorem State.tileCopyPlane_withPort (a : Nat) (n : PortWidth) (p : Plane) :
    (s.withPort c o).tileCopyPlane a n p = (s.tileCopyPlane a n p).withPort c o := by
  refine State.ite_withPort .rfl ?_ rfl
  rw [State.replicate_withPort, State.pwrite_withPort]
  rfl

theorem State.tileMaskPlane_withPort (a : Nat) (n : PortWidth) (v : Half) (p : Plane) :
    (s.withPort c o).tileMaskPlane a n v p = (s.tileMaskPlane a n v p).withPort c o := by
  refine State.ite_withPort .rfl ?_ rfl
  rw [State.replicate_withPort, State.pwrite_withPort, State.pread_withPort]
  rfl

theorem State.tileCopyRead_withPort (a : Nat) (n : PortWidth) :
    (s.withPort c o).tileCopyRead a n = s.tileCopyRead a n := by
  simp only [State.tileCopyRead, State.pread_withPort]
  rfl

theorem State.graphicsRead_withPort (off : Nat) (n : PortWidth) :
    (s.withPort c o).graphicsRead off n = ((s.graphicsRead off n).1, (s.graphicsRead off n).2.withPort c o) := by
  unfold State.graphicsRead
  rw [State.withPort_cfg]
  split
  case h_9 | h_10 => rw [State.tileCopyRead_withPort]
  case h_13 | h_14 | h_15 | h_16 => exact s.egcRead_withPort c o off n
  case h_17 =>
    rw [State.passRead, State.pread_withPort]
    exact congrArg _ (s.logOnce_withPort c o _ _)
  all_goals rw [State.passRead, State.pread_withPort]; rfl

theorem State.graphicsWrite_withPort (off : Nat) (n : PortWidth) (v : Half) :
    (s.withPort c o).graphicsWrite off n v = (s.graphicsWrite off n v).withPort c o := by
  unfold State.graphicsWrite
  rw [State.withPort_cfg]
  split
  case h_9 | h_10 => exact s.planes_withPort c o _ fun t p => t.tileCopyPlane_withPort c o _ n p
  case h_11 | h_12 => exact s.planes_withPort c o _ fun t p => t.tileMaskPlane_withPort c o _ n v p
  case h_13 | h_14 | h_15 | h_16 => exact s.egcWrite_withPort c o _ n v
  case h_17 =>
    rw [State.vopUnassigned, State.logOnce_withPort, State.passWrite, State.pwrite_withPort]
    rfl
  all_goals exact s.pwrite_withPort c o _ n v

theorem State.attrRead_withPort (i : Nat) (n : PortWidth) : (s.withPort c o).attrRead i n = s.attrRead i n := by
  cases n <;> rfl

theorem State.attrWrite_withPort (i : Nat) (n : PortWidth) (v : Half) :
    (s.withPort c o).attrWrite i n v = (s.attrWrite i n v).withPort c o := by
  cases n with
  | byte => exact State.ite_withPort .rfl rfl rfl
  | word => rfl

end

end Sys2Proof.Machine
end

section
/-! Wide accesses as byte accesses (R75, R77): a handler whose accesses are decomposed runs, for a word or a doubleword,
its own byte operations one after the other; its byte rows differ from them by a debit and a value at the port each. -/

namespace Sys2Proof.Machine

/-! ### The value of a read, from its bytes -/

theorem setWidth_eq_byteOf (v : Word) : v.setWidth 8 = byteOf v 0 := by
  apply BitVec.eq_of_getLsbD_eq
  intro i hi
  simp [byteOf_getLsbD, hi, -BitVec.getLsbD_eq_getElem]

theorem setWidth_eq_le16 (v : Word) : v.setWidth 16 = le16 (byteOf v 0) (byteOf v 1) := by
  apply BitVec.eq_of_getLsbD_eq
  intro i hi
  simp only [BitVec.getLsbD_setWidth, le16_getLsbD, byteOf_getLsbD, hi, decide_true, Bool.true_and]
  split_ifs with h
  · simp [h]
  · simp [show i - 8 < 8 by omega, show 8 + (i - 8) = i by omega]

/-- The port shows the low byte of a byte read, the two low bytes of a word read, the four bytes of a doubleword read. -/
theorem Out.ofWidth_byte (v : Word) : Out.ofWidth .byte v = .byte (byteOf v 0) :=
  congrArg Out.byte (setWidth_eq_byteOf v)

theorem Out.ofWidth_word (v : Word) : Out.ofWidth .word v = .half (byteOf v 1 ++ byteOf v 0) :=
  congrArg Out.half (setWidth_eq_le16 v)

theorem Out.ofWidth_dword (v : Word) :
    Out.ofWidth .dword v = .word ((byteOf v 3 ++ byteOf v 2) ++ (byteOf v 1 ++ byteOf v 0)) :=
  congrArg Out.word (le32_bytes v).symm

/-! ### Decomposed accesses and the port -/

theorem readBytes_withPort {f : Word → State → Byte × State}
    (hf : ∀ a s c o, f a (State.withPort s c o) = ((f a s).1, (f a s).2.withPort c o)) (c : Int) (o : Out) :
    ∀ (n : Nat) (a : Word) (s : State),
      readBytes f n a (s.withPort c o) = ((readBytes f n a s).1, (readBytes f n a s).2.withPort c o)
  | 0, _, _ => rfl
  | n + 1, a, s => by simp only [readBytes, hf, readBytes_withPort hf c o n]

theorem writeBytes_withPort {f : Word → Byte → State → State}
    (hf : ∀ a b s c o, f a b (State.withPort s c o) = (f a b s).withPort c o) (c : Int) (o : Out) :
    ∀ (n : Nat) (a d : Word) (s : State), writeBytes f n a d (s.withPort c o) = (writeBytes f n a d s).withPort c o
  | 0, _, _, _ => rfl
  | n + 1, a, d, s => by simp only [writeBytes, hf, writeBytes_withPort hf c o n]

/-- The byte read of tag `h` is the byte operation `f`, which reads neither budget nor port. -/
structure ReadsBy (h : Tag) (f : Word → State → Byte × State) : Prop where
  blind : ∀ a s c o, f a (State.withPort s c o) = ((f a s).1, (f a s).2.withPort c o)
  byte : ∀ a s, exec (Instr.busRd .byte a h) s = finishRead .byte (.next (readBytes f 1 a s.debitRead))

/-- The byte write of tag `h` is the byte operation `f`, which reads neither budget nor port. -/
structure WritesBy (h : Tag) (f : Word → Byte → State → State) : Prop where
  blind : ∀ a b s c o, f a b (State.withPort s c o) = (f a b s).withPort c o
  byte : ∀ a d s, exec (Instr.busWr .byte a d h) s = finishWrite (.next (writeBytes f 1 a d s.debitWrite))

section
variable {h : Tag} {f : Word → State → Byte × State} (hf : ReadsBy h f) (s : State)
include hf

/-- A decomposed read of `n` bytes with its debit, in one piece. -/
theorem ReadsBy.finishRead_eq (w : Width) (n : Nat) (addr : Word) :
    finishRead w (.next (readBytes f n addr s.debitRead)) =
      .next ((readBytes f n addr s).2.withPort (s.cyclesLeft - s.plat.readDelay)
        (Out.ofWidth w (readBytes f n addr s).1)) := by
  rw [State.debitRead_eq_withPort, readBytes_withPort hf.blind]
  rfl

theorem ReadsBy.exec_byte (addr : Word) :
    exec (Instr.busRd .byte addr h) s =
      .next ((f addr s).2.withPort (s.cyclesLeft - s.plat.readDelay) (.byte (f addr s).1)) := by
  rw [hf.byte, hf.finishRead_eq, Out.ofWidth_byte]
  simp only [readBytes, byteOf_shift_zero]

/-- Four byte rows one after the other, and the two wide reads they make up: one debit, the bytes put together
little-endian (R75). -/
theorem ReadsBy.four (addr : Word) : ∃ t0 t1 t2 t3 b0 b1 b2 b3,
    exec (Instr.busRd .byte addr h) s = .next t0 ∧ t0.out = .byte b0 ∧
    exec (Instr.busRd .byte (addr + 1) h) t0 = .next t1 ∧ t1.out = .byte b1 ∧
    exec (Instr.busRd .byte (addr + 2) h) t1 = .next t2 ∧ t2.out = .byte b2 ∧
    exec (Instr.busRd .byte (addr + 3) h) t2 = .next t3 ∧ t3.out = .byte b3 ∧
    finishRead .word (.next (readBytes f 2 addr s.debitRead)) =
      .next ((t1.setCyclesLeft t0.cyclesLeft).setOut (.half (b1 ++ b0))) ∧
    finishRead .dword (.next (readBytes f 4 addr s.debitRead)) =
      .next ((t3.setCyclesLeft t0.cyclesLeft).setOut (.word ((b3 ++ b2) ++ (b1 ++ b0)))) := by
  refine ⟨_, _, _, _, _, _, _, _, hf.exec_byte s addr, rfl, hf.exec_byte _ _, rfl, hf.exec_byte _ _, rfl,
    hf.exec_byte _ _, rfl, ?_, ?_⟩
  · rw [hf.finishRead_eq, Out.ofWidth_word]
    simp [readBytes, hf.blind, byteOf_shift_zero, byteOf_shift_succ, byteOf_byte]
  · rw [hf.finishRead_eq, Out.ofWidth_dword]
    simp [readBytes, hf.blind, byteOf_shift_zero, byteOf_shift_succ, byteOf_byte, BitVec.add_assoc]

end

section
variable {h : Tag} {f : Word → Byte → State → State} (hf : WritesBy h f) (s : State)
include hf

theorem WritesBy.finishWrite_eq (n : Nat) (addr data : Word) :
    finishWrite (.next (writeBytes f n addr data s.debitWrite)) =
      .next ((writeBytes f n addr data s).withPort (s.cyclesLeft - s.plat.writeDelay) .none) := by
  rw [State.debitWrite_eq_withPort, writeBytes_withPort hf.blind]
  rfl

theorem WritesBy.exec_byte (addr data : Word) :
    exec (Instr.busWr .byte addr data h) s =
      .next ((f addr (data.setWidth 8) s).withPort (s.cyclesLeft - s.plat.writeDelay) .none) := by
  rw [hf.byte, hf.finishWrite_eq]
  rfl

/-- Four byte rows one after the other, and the two wide writes they make up: one debit (R75). -/
theorem WritesBy.four (addr data : Word) : ∃ t0 t1 t2 t3,
    exec (Instr.busWr .byte addr data h) s = .next t0 ∧
    exec (Instr.busWr .byte (addr + 1) (data >>> 8) h) t0 = .next t1 ∧
    exec (Instr.busWr .byte (addr + 2) (data >>> 16) h) t1 = .next t2 ∧
    exec (Instr.busWr .byte (addr + 3) (data >>> 24) h) t2 = .next t3 ∧
    t0.cyclesLeft = s.cyclesLeft - s.plat.writeDelay ∧
    finishWrite (.next (writeBytes f 2 addr data s.debitWrite)) = .next (t1.setCyclesLeft t0.cyclesLeft) ∧
    finishWrite (.next (writeBytes f 4 addr data s.debitWrite)) = .next (t3.setCyclesLeft t0.cyclesLeft) := by
  refine ⟨_, _, _, _, hf.exec_byte s addr data, hf.exec_byte _ _ _, hf.exec_byte _ _ _, hf.exec_byte _ _ _, rfl, ?_, ?_⟩
  · rw [hf.finishWrite_eq]
    simp [writeBytes, hf.blind]
  · rw [hf.finishWrite_eq]
    simp [writeBytes, hf.blind, BitVec.add_assoc, ← BitVec.shiftRight_add]

end

/-! ### The latched handlers -/

/-- The byte read of a latched handler (R154, R166, R170). -/
def latchedRead : Tag → Word → State → Byte × State
  | .chainedVgaSlow => chainedVgaSlowReadByte
  | .chainedVgaEt4kSlow => chainedVgaEt4kSlowReadByte
  | _ => unchainedReadByte

/-- The byte write of a latched handler (R157, R167, R171). -/
def latchedWrite : Tag → Word → Byte → State → State
  | .chainedVgaSlow => chainedVgaSlowWriteByte
  | .chainedVgaEt4kSlow => chainedVgaEt4kSlowWriteByte
  | _ => unchainedWriteByte

theorem latched_cases {h : Tag} (hh : h.latched = true) :
    h = .unchained ∨ h = .chainedVgaSlow ∨ h = .chainedVgaEt4kSlow := by
  revert hh
  cases h <;> decide

/-- A read through a latched handler is its byte reads, after one debit (R75). -/
theorem exec_busRd_latched {h : Tag} (hh : h.latched = true) (w : Width) (addr : Word) (s : State) :
    exec (Instr.busRd w addr h) s = finishRead w (.next (readBytes (latchedRead h) (widthBytes w) addr s.debitRead)) := by
  obtain rfl | rfl | rfl := latched_cases hh
  all_goals rfl

theorem exec_busWr_latched {h : Tag} (hh : h.latched = true) (w : Width) (addr data : Word) (s : State) :
    exec (Instr.busWr w addr data h) s =
      finishWrite (.next (writeBytes (latchedWrite h) (widthBytes w) addr data s.debitWrite)) := by
  obtain rfl | rfl | rfl := latched_cases hh
  all_goals rfl

theorem latched_readsBy {h : Tag} (hh : h.latched = true) : ReadsBy h (latchedRead h) where
  blind := by
    intro a s c o
    obtain rfl | rfl | rfl := latched_cases hh
    all_goals exact s.planarReadByte_withPort c o _ _ _
  byte := exec_busRd_latched hh .byte

theorem latched_writesBy {h : Tag} (hh : h.latched = true) : WritesBy h (latchedWrite h) where
  blind := by
    intro a b s c o
    obtain rfl | rfl | rfl := latched_cases hh
    all_goals exact s.planarWriteByte_withPort c o _ b _
  byte := exec_busWr_latched hh .byte

/-- Settles O21: the wide row is the decomposed access after one debit, the byte rows are its byte operations, each with a
debit of its own. -/
theorem latchedWideAccesses : Obligations.LatchedWideAccesses := by
  unfold Obligations.LatchedWideAccesses
  intro s h addr data hh
  rw [exec_busRd_latched hh .word, exec_busRd_latched hh .dword, exec_busWr_latched hh .word,
    exec_busWr_latched hh .dword]
  refine ⟨(latched_readsBy hh).four s addr, ?_⟩
  obtain ⟨t0, t1, t2, t3, h0, h1, h2, h3, -, hword, hdword⟩ := (latched_writesBy hh).four s addr data
  exact ⟨t0, t1, t2, t3, h0, h1, h2, h3, hword, hdword⟩

end Sys2Proof.Machine
end

section
/-! The wrapper of the PC-98 decoder (R77): aligned decoder accesses as operations that complete, byte accesses among them,
and the transactions they make up. -/

namespace Sys2Proof.Machine

/-! ### Aligned decoder accesses -/

/-- What a decoder read answers where it completes. -/
def portRead (n : PortWidth) (addr : Word) (s : State) : Half × State :=
  match decoderRead n addr s with
  | .next r => r
  | _ => (0x0000#16, s)

/-- What a decoder write leaves where it completes. -/
def portWrite (n : PortWidth) (addr : Word) (v : Half) (s : State) : State :=
  match decoderWrite n addr v s with
  | .next t => t
  | _ => s

section
variable {n : PortWidth} {addr : Word} (h : alignedAt n addr.toNat) (s : State)
include h

theorem decoderRead_of_aligned : decoderRead n addr s = .next (portRead n addr s) := by
  rw [portRead, decoderRead, aligned_of h]
  cases regionOf addr <;> rfl

theorem decoderWrite_of_aligned (v : Half) : decoderWrite n addr v s = .next (portWrite n addr v s) := by
  rw [portWrite, decoderWrite, aligned_of h]
  cases regionOf addr <;> rfl

theorem portRead_withPort (c : Int) (o : Out) :
    portRead n addr (s.withPort c o) = ((portRead n addr s).1, (portRead n addr s).2.withPort c o) := by
  simp only [portRead, decoderRead, aligned_of h]
  cases regionOf addr with
  | char | unknown => simp only [State.pread_withPort]
  | attr => simp only [State.attrRead_withPort]
  | graphics => exact s.graphicsRead_withPort c o _ n
  | msw | absent => rfl

theorem portWrite_withPort (v : Half) (c : Int) (o : Out) :
    portWrite n addr v (s.withPort c o) = (portWrite n addr v s).withPort c o := by
  simp only [portWrite, decoderWrite, aligned_of h]
  cases regionOf addr with
  | char | unknown => exact s.pwrite_withPort c o _ n v
  | attr => exact s.attrWrite_withPort c o _ n v
  | graphics => exact s.graphicsWrite_withPort c o _ n v
  | msw | absent => rfl

end

/-! ### Byte accesses answer bytes (R11) -/

/-- A value of eight bits, zero-extended. -/
def byteSized (v : Half) : Prop := ∃ b : Byte, v = b.setWidth 16

theorem State.egcRead_byteSized (s : State) (off : Nat) : byteSized (s.egcRead off .byte).1 := by
  simp only [State.egcRead, State.egcReadValue]
  split_ifs
  · exact ⟨0x00#8, rfl⟩
  · exact ⟨_, rfl⟩
  · exact ⟨_, rfl⟩

theorem State.graphicsRead_byteSized (s : State) (off : Nat) : byteSized (s.graphicsRead off .byte).1 := by
  unfold State.graphicsRead
  split
  case h_13 | h_14 | h_15 | h_16 => exact s.egcRead_byteSized off
  all_goals exact ⟨_, rfl⟩

theorem State.attrRead_byteSized (s : State) (off : Nat) : byteSized (s.attrRead off .byte) := by
  simp only [State.attrRead]
  split
  · exact ⟨0xFF#8, rfl⟩
  · exact ⟨_, rfl⟩

theorem portRead_byteSized (addr : Word) (s : State) : byteSized (portRead .byte addr s).1 := by
  simp only [portRead, decoderRead, aligned_of (.inl rfl : alignedAt .byte addr.toNat)]
  cases regionOf addr with
  | attr => exact s.attrRead_byteSized _
  | graphics => exact s.graphicsRead_byteSized _
  | absent => exact ⟨0xFF#8, rfl⟩
  | msw | char | unknown => exact ⟨_, rfl⟩

/-! ### Byte accesses of the decoder -/

/-- The byte read of the decoder. -/
def portReadByte (addr : Word) (s : State) : Byte × State :=
  ((portRead .byte addr s).1.setWidth 8, (portRead .byte addr s).2)

/-- The byte write of the decoder. -/
def portWriteByte (addr : Word) (b : Byte) (s : State) : State := portWrite .byte addr (b.setWidth 16) s

theorem portReadByte_setWidth (addr : Word) (s : State) :
    (portReadByte addr s).1.setWidth 32 = (portRead .byte addr s).1.setWidth 32 := by
  obtain ⟨b, hb⟩ := portRead_byteSized addr s
  simp only [portReadByte, hb]
  apply BitVec.eq_of_toNat_eq
  have := b.isLt
  simp only [BitVec.toNat_setWidth]
  omega

theorem cutTo_byte (data : Word) : cutTo .byte (data.setWidth 16) = (data.setWidth 8).setWidth 16 := by
  simp only [cutTo]
  congr 1
  apply BitVec.eq_of_getLsbD_eq
  intro i hi
  simp [hi, show i < 16 by omega, -BitVec.getLsbD_eq_getElem]

theorem decoderReads_byte : ∀ (k : Nat) (addr : Word) (s : State),
    decoderReads .byte k addr s = .next (readBytes portReadByte k addr s)
  | 0, _, _ => rfl
  | k + 1, addr, s => by
    simp only [decoderReads, decoderRead_of_aligned (.inl rfl : alignedAt .byte addr.toNat), andThen_next,
      decoderReads_byte k, readBytes, portReadByte_setWidth]
    rfl

theorem decoderWrites_byte : ∀ (k : Nat) (addr data : Word) (s : State),
    decoderWrites .byte k addr data s = .next (writeBytes portWriteByte k addr data s)
  | 0, _, _, _ => rfl
  | k + 1, addr, data, s => by
    simp only [decoderWrites, decoderWrite_of_aligned (.inl rfl : alignedAt .byte addr.toNat), andThen_next, cutTo_byte]
    exact decoderWrites_byte k _ _ _

theorem pc98_readsBy : ReadsBy .pc98 portReadByte where
  blind a s c o := by
    simp only [portReadByte, portRead_withPort (.inl rfl : alignedAt .byte a.toNat)]
  byte a s := congrArg (finishRead .byte) (decoderReads_byte 1 a s.debitRead)

theorem pc98_writesBy : WritesBy .pc98 portWriteByte where
  blind _ _ s c o := portWrite_withPort (.inl rfl) s _ c o
  byte a d s := congrArg finishWrite (decoderWrites_byte 1 a d s.debitWrite)

/-! ### Word accesses of the decoder at even addresses -/

theorem halves_assembled (lo hi : Half) :
    ((0#32 <<< 16 ||| hi.setWidth 32) <<< 16) ||| lo.setWidth 32 = hi ++ lo := by
  apply BitVec.eq_of_getLsbD_eq
  intro i hi32
  simp only [BitVec.getLsbD_or, BitVec.getLsbD_shiftLeft, BitVec.getLsbD_setWidth, BitVec.getLsbD_append,
    BitVec.getLsbD_zero]
  by_cases h : i < 16
  · simp [h, hi32]
  · simp [h, hi32, BitVec.getLsbD_of_ge lo i (by omega), show i - 16 < 32 by omega]

section
variable {addr : Word} (h : addr.toNat % 2 = 0) (s : State)
include h

theorem add_two_even : (addr + 2).toNat % 2 = 0 := by
  have := BitVec.toNat_add addr 2
  have h2 : (2 : Word).toNat = 2 := rfl
  omega

theorem decoderReads_word : decoderReads .word 1 addr s =
    .next ((portRead .word addr s).1.setWidth 32, (portRead .word addr s).2) := by
  simp [decoderReads, decoderRead_of_aligned (.inr h)]

theorem decoderReads_word_two : decoderReads .word 2 addr s =
    .next ((portRead .word (addr + 2) (portRead .word addr s).2).1 ++ (portRead .word addr s).1,
      (portRead .word (addr + 2) (portRead .word addr s).2).2) := by
  rw [decoderReads, decoderRead_of_aligned (.inr h), andThen_next]
  rw [show addr + BitVec.ofNat 32 (portBytes .word) = addr + 2 from rfl, decoderReads,
    decoderRead_of_aligned (.inr (add_two_even h))]
  exact congrArg (fun v => Host.Outcome.next (v, _)) (halves_assembled _ _)

theorem decoderWrites_word_two (d : Word) : decoderWrites .word 2 addr d s =
    .next (portWrite .word (addr + 2) ((d >>> 16).setWidth 16) (portWrite .word addr (d.setWidth 16) s)) := by
  rw [decoderWrites, decoderWrite_of_aligned (.inr h), andThen_next]
  rw [show addr + BitVec.ofNat 32 (portBytes .word) = addr + 2 from rfl, decoderWrites,
    decoderWrite_of_aligned (.inr (add_two_even h))]
  rfl

theorem exec_pc98Rd_word : exec (.pc98Rd .word addr) s =
    .next ((portRead .word addr s).2.withPort (s.cyclesLeft - s.plat.readDelay) (.half (portRead .word addr s).1)) := by
  simp only [exec, execPc98Rd, directSplit, decoderReads_word h, State.debitRead_eq_withPort,
    portRead_withPort (.inr h), finishRead, andThen_next, State.setOut_withPort, Out.ofWidth]
  simp

theorem exec_pc98Wr_word (d : Word) : exec (.pc98Wr .word addr d) s =
    .next ((portWrite .word addr (d.setWidth 16) s).withPort (s.cyclesLeft - s.plat.writeDelay) .none) := by
  simp only [exec, execPc98Wr, directSplit, decoderWrites, decoderWrite_of_aligned (.inr h), andThen_next, cutTo,
    State.debitWrite_eq_withPort, portWrite_withPort (.inr h), finishWrite, State.setOut_withPort]

/-- An even doubleword read is two word reads (R77). -/
theorem pc98Rd_dword_even : ∃ t0 t1 h0 h1,
    exec (.pc98Rd .word addr) s = .next t0 ∧ t0.out = .half h0 ∧
    exec (.pc98Rd .word (addr + 2)) t0 = .next t1 ∧ t1.out = .half h1 ∧
    exec (.pc98Rd .dword addr) s = .next ((t1.setCyclesLeft t0.cyclesLeft).setOut (.word (h1 ++ h0))) := by
  have h2 := add_two_even h
  have hsplit : directSplit .dword addr = (.word, 2) := by simp [directSplit, wrapperSplit, h]
  refine ⟨_, _, _, _, exec_pc98Rd_word h s, rfl, exec_pc98Rd_word h2 _, rfl, ?_⟩
  simp only [exec, execPc98Rd, hsplit, decoderReads_word_two h, State.debitRead_eq_withPort,
    portRead_withPort (.inr h), portRead_withPort (.inr h2), finishRead, andThen_next, State.setOut_withPort,
    State.setCyclesLeft_withPort, State.withPort_withPort, State.withPort_cyclesLeft, Out.ofWidth]

/-- An even doubleword write is two word writes (R77). -/
theorem pc98Wr_dword_even (d : Word) : ∃ t0 t1,
    exec (.pc98Wr .word addr d) s = .next t0 ∧ exec (.pc98Wr .word (addr + 2) (d >>> 16)) t0 = .next t1 ∧
    exec (.pc98Wr .dword addr d) s = .next (t1.setCyclesLeft t0.cyclesLeft) := by
  have h2 := add_two_even h
  have hsplit : directSplit .dword addr = (.word, 2) := by simp [directSplit, wrapperSplit, h]
  refine ⟨_, _, exec_pc98Wr_word h s d, exec_pc98Wr_word h2 _ _, ?_⟩
  simp only [exec, execPc98Wr, hsplit, decoderWrites_word_two h, State.debitWrite_eq_withPort,
    portWrite_withPort (.inr h), portWrite_withPort (.inr h2), finishWrite, andThen_next, State.setOut_withPort,
    State.setCyclesLeft_withPort, State.withPort_withPort, State.withPort_cyclesLeft]

end

/-! ### Transactions served by the decoder -/

theorem State.sameBinding_self (s : State) (addr : Word) : s.sameBinding addr addr = true := by
  simp [State.sameBinding]

/-- At an odd address the wrapper makes byte accesses only (R77). -/
theorem wrapperSplit_of_odd (w : Width) {addr : Word} (h : addr.toNat % 2 = 1) :
    wrapperSplit w addr = (.byte, widthBytes w) := by
  cases w <;> simp [wrapperSplit, widthBytes, h]

section
variable {s : State} {w : Width} {addr : Word} (hpc : s.handlerAt addr = .pc98)
  (hsame : s.sameBinding addr (addr + BitVec.ofNat 32 (widthBytes w - 1)) = true)
include hpc hsame

/-- A transaction the wrapper hands on as it is, or as the direct row splits it, is that row (log entry 20). -/
theorem exec_rdRow_pc98 (hd : w.direct addr) : exec (w.rdRow addr) s = exec (.pc98Rd w addr) s := by
  have hrd := (transactionsServed s w addr 0 hsame fun _ => hd).1
  rwa [hpc] at hrd

theorem exec_wrRow_pc98 (hd : w.direct addr) (d : Word) :
    exec (w.wrRow addr d) s = exec (.pc98Wr w addr d) s := by
  have hwr := (transactionsServed s w addr d hsame fun _ => hd).2
  rwa [hpc] at hwr

theorem exec_rdRow_pc98_odd (hodd : addr.toNat % 2 = 1) :
    exec (w.rdRow addr) s = finishRead w (.next (readBytes portReadByte (widthBytes w) addr s.debitRead)) := by
  rw [exec_rdRow, memRead_of_sameBinding hsame, hpc, serveRead, pc98Read, wrapperSplit_of_odd w hodd, decoderReads_byte]

theorem exec_wrRow_pc98_odd (hodd : addr.toNat % 2 = 1) (d : Word) :
    exec (w.wrRow addr d) s = finishWrite (.next (writeBytes portWriteByte (widthBytes w) addr d s.debitWrite)) := by
  rw [exec_wrRow, memWrite_of_sameBinding _ hsame, serveWrite_congr _ w addr s (rowData_agree w d), hpc, serveWrite,
    pc98Write, wrapperSplit_of_odd w hodd, decoderWrites_byte]

end

/-- Settles O30: a transaction the direct row takes is that row, at an even doubleword two word rows; at an odd address it
is byte operations, and the byte rows are those. -/
theorem pc98Wrapper : Obligations.Pc98Wrapper := by
  unfold Obligations.Pc98Wrapper
  intro s addr d hpc
  have hself : s.sameBinding addr (addr + BitVec.ofNat 32 (widthBytes .byte - 1)) = true := by
    simpa [widthBytes] using s.sameBinding_self addr
  refine ⟨exec_rdRow_pc98 hpc hself (.inl (by decide)), exec_wrRow_pc98 hpc hself (.inl (by decide)) d, ?_, ?_, ?_, ?_⟩
  · intro hsame heven
    exact ⟨exec_rdRow_pc98 (w := .word) hpc hsame (.inr heven), exec_wrRow_pc98 (w := .word) hpc hsame (.inr heven) d⟩
  · intro hsame hodd
    constructor
    · obtain ⟨t0, t1, _, _, b0, b1, _, _, h0, o0, h1, o1, -, -, -, -, hword, -⟩ := pc98_readsBy.four s addr
      exact ⟨t0, t1, b0, b1, h0, o0, h1, o1, (exec_rdRow_pc98_odd (w := .word) hpc hsame hodd).trans hword⟩
    · obtain ⟨t0, t1, _, _, h0, h1, -, -, -, hword, -⟩ := pc98_writesBy.four s addr d
      exact ⟨t0, t1, h0, h1, (exec_wrRow_pc98_odd (w := .word) hpc hsame hodd d).trans hword⟩
  · intro hsame heven
    have hrd : exec (.rd32 addr) s = exec (.pc98Rd .dword addr) s :=
      exec_rdRow_pc98 (w := .dword) hpc hsame (.inl (by decide))
    have hwr : exec (.wr32 addr d) s = exec (.pc98Wr .dword addr d) s :=
      exec_wrRow_pc98 (w := .dword) hpc hsame (.inl (by decide)) d
    rw [hrd, hwr]
    exact ⟨pc98Rd_dword_even heven s, pc98Wr_dword_even heven s d⟩
  · intro hsame hodd
    constructor
    · obtain ⟨t0, t1, t2, t3, b0, b1, b2, b3, h0, o0, h1, o1, h2, o2, h3, o3, -, hdword⟩ := pc98_readsBy.four s addr
      exact ⟨t0, t1, t2, t3, b0, b1, b2, b3, h0, o0, h1, o1, h2, o2, h3, o3,
        (exec_rdRow_pc98_odd (w := .dword) hpc hsame hodd).trans hdword⟩
    · obtain ⟨t0, t1, t2, t3, h0, h1, h2, h3, -, -, hdword⟩ := pc98_writesBy.four s addr d
      exact ⟨t0, t1, t2, t3, h0, h1, h2, h3, (exec_wrRow_pc98_odd (w := .dword) hpc hsame hodd d).trans hdword⟩

end Sys2Proof.Machine
end

section
/-! The byte-linear handlers (R76, R81): every row in terms of the statement's flat addresses and places, one byte, wide
accesses against their byte accesses. -/

namespace Sys2Proof.Machine

/-! ### The rows -/

theorem byteLinear_cases {h : Tag} (hh : h.byteLinear = true) :
    h = .linear ∨ h = .chainedVga ∨ h = .chainedVgaEt4k ∨ h = .chainedEga := by
  revert hh
  cases h <;> decide

/-- The value a read of a byte-linear handler gives: flat addresses by window or bank, places by the handler. -/
def State.linearValue (s : State) (h : Tag) (w : Width) (addr : Word) : Word :=
  linearRead (s.linearAt h s.binding.bankReadFull) (linearPlace h) w addr s

/-- What a write of a byte-linear handler leaves, its debit and the port aside. -/
def State.linearStore (s : State) (h : Tag) (w : Width) (addr data : Word) : State :=
  linearWrite (s.linearAt h s.binding.bankWriteFull) (linearPlace h) w addr data s

theorem linearPlace_chain4 : chain4Place = linearPlace .chainedVga := funext chain4Place_eq

theorem linearPlace_flat {h : Tag} (hh : h ≠ .chainedVga) : flatPlace = linearPlace h := funext (flatPlace_eq hh)

theorem State.linearAt_flatRead (s : State) {h : Tag} (hh : h ≠ .linear) :
    s.flatRead = s.linearAt h s.binding.bankReadFull := funext (s.flatRead_eq hh)

theorem State.linearAt_flatWrite (s : State) {h : Tag} (hh : h ≠ .linear) :
    s.flatWrite = s.linearAt h s.binding.bankWriteFull := funext (s.flatWrite_eq hh)

theorem serveRead_byteLinear {h : Tag} (hh : h.byteLinear = true) (w : Width) (addr : Word) (s : State) :
    serveRead h w addr s = .next (s.debitRead.linearValue h w addr, s.debitRead) := by
  obtain rfl | rfl | rfl | rfl := byteLinear_cases hh
  · simp only [serveRead, linearTagRead, funext s.debitRead.linearFlatRead_eq, State.linearValue,
      linearPlace_flat (h := .linear) (by decide)]
  · simp only [serveRead, chainedVgaRead, s.debitRead.linearAt_flatRead (h := .chainedVga) (by decide),
      linearPlace_chain4, State.linearValue]
  · simp only [serveRead, chainedVgaEt4kRead, s.debitRead.linearAt_flatRead (h := .chainedVgaEt4k) (by decide),
      State.linearValue, ← linearPlace_flat (h := .chainedVgaEt4k) (by decide)]
    rfl
  · simp only [serveRead, chainedEgaRead, s.debitRead.linearAt_flatRead (h := .chainedEga) (by decide),
      State.linearValue, linearPlace_flat (h := .chainedEga) (by decide)]

theorem serveWrite_byteLinear {h : Tag} (hh : h.byteLinear = true) (w : Width) (addr data : Word) (s : State) :
    serveWrite h w addr data s = .next (s.debitWrite.linearStore h w addr data) := by
  obtain rfl | rfl | rfl | rfl := byteLinear_cases hh
  · simp only [serveWrite, linearTagWrite, funext s.debitWrite.linearFlatWrite_eq, State.linearStore,
      linearPlace_flat (h := .linear) (by decide)]
  · simp only [serveWrite, chainedVgaWrite, s.debitWrite.linearAt_flatWrite (h := .chainedVga) (by decide),
      linearPlace_chain4, State.linearStore]
  · simp only [serveWrite, chainedVgaEt4kWrite, s.debitWrite.linearAt_flatWrite (h := .chainedVgaEt4k) (by decide),
      State.linearStore, ← linearPlace_flat (h := .chainedVgaEt4k) (by decide)]
    rfl
  · simp only [serveWrite, chainedEgaWrite, s.debitWrite.linearAt_flatWrite (h := .chainedEga) (by decide),
      State.linearStore, linearPlace_flat (h := .chainedEga) (by decide)]

theorem not_pc98_of_byteLinear {h : Tag} (hh : h.byteLinear = true) : h ≠ .pc98 := by
  rintro rfl
  cases hh

theorem exec_busRd_byteLinear {h : Tag} (hh : h.byteLinear = true) (w : Width) (addr : Word) (s : State) :
    exec (Instr.busRd w addr h) s = .next (s.debitRead.setOut (Out.ofWidth w (s.debitRead.linearValue h w addr))) := by
  rw [exec_busRd s fun e => absurd e (not_pc98_of_byteLinear hh), serveRead_byteLinear hh]
  rfl

theorem exec_busWr_byteLinear {h : Tag} (hh : h.byteLinear = true) (w : Width) (addr data : Word) (s : State) :
    exec (Instr.busWr w addr data h) s = .next ((s.debitWrite.linearStore h w addr data).setOut .none) := by
  rw [exec_busWr data s fun e => absurd e (not_pc98_of_byteLinear hh), serveWrite_byteLinear hh]
  rfl

/-! ### What they read and store -/

/-- The VRAM offset of byte `k` of an access of `n` bytes under a bank offset (R76, log entry 33). -/
def State.byteOffset (s : State) (h : Tag) (bank : Word) (n : Nat) (addr : Word) (k : Nat) : Nat :=
  linearOffset s (s.linearAt h bank) (linearPlace h) n addr k

theorem byteOf_linearValue (s : State) (h : Tag) (w : Width) (addr : Word) {k : Nat} (hk : k < widthBytes w) :
    byteOf (s.debitRead.linearValue h w addr) k =
      s.vramAt (s.byteOffset h s.binding.bankReadFull (widthBytes w) addr k) :=
  byteOf_linearRead _ _ w addr s.debitRead k hk

theorem linearStore_vramAt {s : State} (hs : s.Inv) (h : Tag) (w : Width) (addr data : Word) (x : Nat) :
    (s.debitWrite.linearStore h w addr data).vramAt x = (List.range (widthBytes w)).foldl
      (fun b k => if s.byteOffset h s.binding.bankWriteFull (widthBytes w) addr k = x then byteOf data k else b)
      (s.vramAt x) :=
  linearWrite_vramAt _ _ w addr data hs.debitWrite.vramWf x

theorem linearStore_keeps (s : State) (h : Tag) (w : Width) (addr data : Word) :
    s.debitWrite.keepsBut [.vram] (s.debitWrite.linearStore h w addr data) := linearWrite_keeps _ _ _ _ _ _

/-- A byte-linear write changes VRAM, budget and port. -/
theorem linearStore_setOut_keeps (s : State) (h : Tag) (w : Width) (addr data : Word) (o : Out) :
    s.keepsBut [.vram, .cyclesLeft, .out] ((s.debitWrite.linearStore h w addr data).setOut o) :=
  ((s.debitWrite_keeps.mono (by decide)).trans ((linearStore_keeps s h w addr data).mono (by decide))).trans
    ((State.keepsBut_setOut _ o).mono (by decide))

theorem linearStore_cyclesLeft (s : State) (h : Tag) (w : Width) (addr data : Word) :
    (s.debitWrite.linearStore h w addr data).cyclesLeft = s.cyclesLeft - s.plat.writeDelay :=
  linearStore_keeps s h w addr data .cyclesLeft (by decide)

/-! ### One byte -/

theorem State.byteOffset_zero (s : State) (h : Tag) (bank addr : Word) :
    s.byteOffset h bank 1 addr 0 = s.wrap (linearPlace h (s.linearAt h bank addr)) := by
  simp [State.byteOffset, linearOffset, Nat.mod_one]

/-- A byte read through a byte-linear handler gives the VRAM byte at the place of its flat address and changes nothing but
the budget (R161, R168, R174, R176). -/
theorem exec_busRd_byteLinear_byte {h : Tag} (hh : h.byteLinear = true) (addr : Word) (s : State) :
    exec (Instr.busRd .byte addr h) s = .next (s.debitRead.setOut
      (.byte (s.vramAt (s.wrap (linearPlace h (s.linearAt h s.binding.bankReadFull addr)))))) := by
  rw [exec_busRd_byteLinear hh, Out.ofWidth_byte, byteOf_linearValue s h .byte addr (by decide)]
  exact congrArg (fun x => Host.Outcome.next (s.debitRead.setOut (.byte (s.vramAt x)))) (s.byteOffset_zero _ _ _)

/-- A byte write through a byte-linear handler stores to the place of its flat address and changes nothing else but the
budget (R162, R169, R175, R177). -/
theorem exec_busWr_byteLinear_byte {h : Tag} (hh : h.byteLinear = true) (addr data : Word) {s : State} (hs : s.Inv) :
    ∃ t, exec (Instr.busWr .byte addr data h) s = .next t ∧
      (∀ x, t.vramAt x = if x = s.wrap (linearPlace h (s.linearAt h s.binding.bankWriteFull addr))
        then data.setWidth 8 else s.vramAt x) ∧
      t.cyclesLeft = s.cyclesLeft - s.plat.writeDelay ∧ t.out = .none ∧ s.keepsBut [.vram, .cyclesLeft, .out] t := by
  refine ⟨_, exec_busWr_byteLinear hh .byte addr data s, fun x => ?_, linearStore_cyclesLeft s h .byte addr data, rfl,
    linearStore_setOut_keeps s h .byte addr data .none⟩
  refine (linearStore_vramAt hs h .byte addr data x).trans ?_
  simp [widthBytes, List.range_succ, State.byteOffset_zero, setWidth_eq_byteOf, eq_comm (a := x)]

/-- Inside the framebuffer window `LINEAR` takes base and mask of the window (R81). -/
theorem State.linearAt_of_lfbOf {s : State} {addr : Word} {l : Lfb} (hl : s.lfbOf addr = some l) (bank : Word) :
    s.linearAt .linear bank addr = (addr - l.base).toNat % l.size.bytes % s.plat.vmemSize := by
  simp only [State.linearAt, if_true, hl]

/-- Settles O23: the byte access of every byte-linear handler, at the flat address the window gives. -/
theorem lfbBytes : Obligations.LfbBytes := by
  unfold Obligations.LfbBytes
  intro s addr data l hs hl o
  have hplace (bank : Word) : s.wrap (linearPlace .linear (s.linearAt .linear bank addr)) = o := by
    rw [State.linearAt_of_lfbOf hl]
    exact Nat.mod_mod _ _
  constructor
  · have hrd := exec_busRd_byteLinear_byte (h := .linear) rfl addr s
    rwa [hplace] at hrd
  · obtain ⟨t, ht, hvram, hcycles, hout, hkeeps⟩ := exec_busWr_byteLinear_byte (h := .linear) rfl addr data hs
    simp only [hplace] at hvram
    exact ⟨t, ht, by simp [hvram], fun x hx => by simp [hvram, hx], hcycles, hout, hkeeps⟩

end Sys2Proof.Machine
end

section
/-! Wide byte-linear accesses against their byte accesses (R76, log entries 19, 33, 39): where the one piece reaches the
places of the bytes' own flat addresses, and that the byte rows then leave the same. -/

namespace Sys2Proof.Machine

/-! ### Adding below four

An addend that stays inside an aligned group of four passes through every translation: a sum in 32 bits, a mask that keeps
the two low bits, a remainder by a multiple of four. -/

theorem mod_add_of_low {x k m : Nat} (hm : 4 ∣ m) (hk : x % 4 + k < 4) : (x + k) % m = x % m + k := by
  obtain rfl | hpos := Nat.eq_zero_or_pos m
  · simp
  have hlt := Nat.mod_lt x hpos
  have hlow : x % m % 4 = x % 4 := Nat.mod_mod_of_dvd x hm
  obtain ⟨c, rfl⟩ := hm
  rw [← Nat.mod_add_mod, Nat.mod_eq_of_lt (by omega)]

theorem land_eq_of_low {m : Nat} (hm : m % 4 = 3) (x : Nat) : x &&& m = 4 * (x / 4 &&& m / 4) + x % 4 := by
  have hdiv : (x &&& m) / 4 = x / 4 &&& m / 4 := Nat.and_div_two_pow (n := 2)
  have hmod : (x &&& m) % 4 = x % 4 := by
    have h1 : (x &&& m) % 4 = x % 4 &&& m % 4 := Nat.and_mod_two_pow (n := 2)
    have h2 : x % 4 &&& 3 = x % 4 % 4 := Nat.and_two_pow_sub_one_eq_mod _ 2
    rw [h1, hm, h2, Nat.mod_mod]
  omega

theorem land_add_of_low {x k m : Nat} (hm : m % 4 = 3) (hk : x % 4 + k < 4) : (x + k) &&& m = (x &&& m) + k := by
  rw [land_eq_of_low hm, land_eq_of_low hm, show (x + k) / 4 = x / 4 by omega]
  omega

theorem toNat_add_of_low {x : Word} {k : Nat} (hk : x.toNat % 4 + k < 4) :
    (x + BitVec.ofNat 32 k).toNat = x.toNat + k := by
  rw [BitVec.toNat_add, BitVec.toNat_ofNat, Nat.add_mod_mod, mod_add_of_low (by decide) hk, Nat.mod_eq_of_lt x.isLt]

theorem toNat_and_three (x : Word) : (x &&& 3#32).toNat = x.toNat % 4 :=
  Nat.and_two_pow_sub_one_eq_mod x.toNat 2

/-- From a multiple of the width the bytes of the access stay inside a group of four. -/
theorem low_of_multiple {w : Width} {x k : Nat} (hx : x % widthBytes w = 0) (hk : k < widthBytes w) :
    x % 4 + k < 4 := by
  cases w <;> simp only [widthBytes] at hx hk <;> omega

/-! ### Flat addresses of consecutive bytes -/

theorem LfbSize.four_dvd (z : LfbSize) : 4 ∣ z.bytes := by cases z <;> decide

theorem Platform.four_dvd_vmemSize {p : Platform} (h : 2 ≤ p.vmemBits) : 4 ∣ p.vmemSize := ⟨_, (p.vmemSize_eq h).symm⟩

/-- Outside the framebuffer window, and for every handler but `LINEAR`, the flat address takes window mask and bank (R87). -/
theorem State.linearAt_of_outside {s : State} {h : Tag} {addr : Word} (hout : h = .linear → s.lfbOf addr = none)
    (bank : Word) : s.linearAt h bank addr = ((addr &&& s.binding.pageMask) + bank).toNat % s.plat.vmemSize := by
  have hnone : (if h = .linear then s.lfbOf addr else none) = none := by
    split
    · exact hout ‹_›
    · rfl
  simp only [State.linearAt, hnone]

section
variable {s : State} {bank addr : Word} {k : Nat} (hb : 2 ≤ s.plat.vmemBits)
include hb

/-- Two bytes inside the linear framebuffer window: base and mask of the window keep their distance (R81). -/
theorem State.linearAt_add_of_inside {l : Lfb} (h0 : s.lfbOf addr = some l)
    (h1 : s.lfbOf (addr + BitVec.ofNat 32 k) = some l) (hk : s.linearAt .linear bank addr % 4 + k < 4) :
    s.linearAt .linear bank (addr + BitVec.ofNat 32 k) = s.linearAt .linear bank addr + k := by
  have hsize := LfbSize.four_dvd l.size
  have hvmem := Platform.four_dvd_vmemSize hb
  rw [State.linearAt_of_lfbOf h0, Nat.mod_mod_of_dvd _ hvmem] at hk
  have hdist : (addr - l.base).toNat % 4 + k < 4 := by rwa [Nat.mod_mod_of_dvd _ hsize] at hk
  rw [State.linearAt_of_lfbOf h0, State.linearAt_of_lfbOf h1, add_sub_right_comm, toNat_add_of_low hdist,
    mod_add_of_low hsize hdist, mod_add_of_low hvmem hk]

/-- Two bytes outside the window: window mask and bank keep their distance where they leave the two low bits alone. -/
theorem State.linearAt_add_of_outside {h : Tag} (h0 : h = .linear → s.lfbOf addr = none)
    (h1 : h = .linear → s.lfbOf (addr + BitVec.ofNat 32 k) = none) (hmask : s.binding.pageMask &&& 3#32 = 3#32)
    (hbank : bank &&& 3#32 = 0#32) (hk : s.linearAt h bank addr % 4 + k < 4) :
    s.linearAt h bank (addr + BitVec.ofNat 32 k) = s.linearAt h bank addr + k := by
  have hvmem := Platform.four_dvd_vmemSize hb
  have hm3 : s.binding.pageMask.toNat % 4 = 3 := (toNat_and_three _).symm.trans (congrArg BitVec.toNat hmask)
  have hb0 : bank.toNat % 4 = 0 := (toNat_and_three _).symm.trans (congrArg BitVec.toNat hbank)
  rw [State.linearAt_of_outside h0, Nat.mod_mod_of_dvd _ hvmem] at hk
  have hand : (addr &&& s.binding.pageMask).toNat % 4 = addr.toNat % 4 := by
    rw [BitVec.toNat_and, land_eq_of_low hm3]
    omega
  have hsum : ((addr &&& s.binding.pageMask) + bank).toNat % 4 = addr.toNat % 4 := by
    rw [BitVec.toNat_add]
    omega
  have hmasked : (addr + BitVec.ofNat 32 k) &&& s.binding.pageMask =
      (addr &&& s.binding.pageMask) + BitVec.ofNat 32 k := by
    apply BitVec.eq_of_toNat_eq
    rw [BitVec.toNat_and, toNat_add_of_low (by omega), toNat_add_of_low (by omega), land_add_of_low hm3 (by omega),
      BitVec.toNat_and]
  rw [State.linearAt_of_outside h0, State.linearAt_of_outside h1, hmasked, add_right_comm, toNat_add_of_low hk,
    mod_add_of_low hvmem hk]

end

theorem linearPlace_add {h : Tag} {a k : Nat} (hk : a % 4 + k < 4) :
    linearPlace h (a + k) = linearPlace h a + k := by
  simp only [linearPlace]
  split
  · omega
  · rfl

/-- An access of `n` bytes reaches the places of its bytes' own flat addresses: it is split, or it is one piece inside the
linear framebuffer window, or outside it under a window mask and a bank that leave the two low bits alone. -/
def State.likeBytes (s : State) (h : Tag) (bank : Word) (n : Nat) (addr : Word) : Prop :=
  s.linearAt h bank addr % n ≠ 0 ∨
  2 ≤ s.plat.vmemBits ∧
    ((∃ l, h = .linear ∧ ∀ k, k < n → s.lfbOf (addr + BitVec.ofNat 32 k) = some l) ∨
     ((h = .linear → ∀ k, k < n → s.lfbOf (addr + BitVec.ofNat 32 k) = none) ∧
       s.binding.pageMask &&& 3#32 = 3#32 ∧ bank &&& 3#32 = 0#32))

theorem State.likeBytes.byteOffset {s : State} {h : Tag} {bank addr : Word} {w : Width}
    (hlike : s.likeBytes h bank (widthBytes w) addr) {k : Nat} (hk : k < widthBytes w) :
    s.byteOffset h bank (widthBytes w) addr k =
      s.wrap (linearPlace h (s.linearAt h bank (addr + BitVec.ofNat 32 k))) := by
  unfold State.byteOffset linearOffset
  split
  case isFalse => rfl
  case isTrue hpiece =>
    have hlow := low_of_multiple hpiece hk
    obtain hsplit | ⟨hb, hcase⟩ := hlike
    · exact absurd hpiece hsplit
    suffices hadd : s.linearAt h bank (addr + BitVec.ofNat 32 k) = s.linearAt h bank addr + k by
      rw [hadd, linearPlace_add hlow]
    have hzero : addr + BitVec.ofNat 32 0 = addr := by simp
    have hpos : 0 < widthBytes w := Nat.zero_lt_of_lt hk
    obtain ⟨l, rfl, hin⟩ | ⟨hout, hmask, hbank⟩ := hcase
    · exact State.linearAt_add_of_inside hb (hzero ▸ hin 0 hpos) (hin k hk) hlow
    · exact State.linearAt_add_of_outside hb (fun e => hzero ▸ hout e 0 hpos) (fun e => hout e k hk) hmask hbank hlow

/-! ### Wide writes as byte writes -/

/-- The byte write of a byte-linear handler. -/
def linearPut (h : Tag) (addr : Word) (b : Byte) (s : State) : State :=
  s.putByte (linearPlace h (s.linearAt h s.binding.bankWriteFull addr)) b

theorem byteLinear_writesBy {h : Tag} (hh : h.byteLinear = true) : WritesBy h (linearPut h) where
  blind _ _ _ _ _ := rfl
  byte a d s := by
    rw [exec_busWr_byteLinear hh, State.linearStore, linearWrite_byte]
    rfl

/-- A flat address depends on the parameters and the binding only. -/
theorem State.linearAt_congr {s t : State} (hp : t.plat = s.plat) (hbind : t.binding = s.binding) (h : Tag)
    (bank addr : Word) : t.linearAt h bank addr = s.linearAt h bank addr := by
  simp only [State.linearAt, State.lfbOf, hp, hbind]

/-- Byte writes leave the translation of the addresses as it was. -/
theorem writeBytes_linearPut (h : Tag) (s : State) : ∀ (n : Nat) (addr data : Word) (t : State), t.plat = s.plat →
    t.binding = s.binding → writeBytes (linearPut h) n addr data t =
      writeBytes (fun y b u => u.putByte (linearPlace h (s.linearAt h s.binding.bankWriteFull y)) b) n addr data t
  | 0, _, _, _, _, _ => rfl
  | n + 1, addr, data, t, hp, hbind => by
    simp only [writeBytes, linearPut, State.linearAt_congr hp hbind, hbind]
    exact writeBytes_linearPut h s n _ _ _ hp hbind

theorem State.keepsBut.eq_setVram {s t : State} (h : s.keepsBut [.vram] t) : t = s.setVram t.vram := by
  have hsame (r : Reg) (hr : r ∉ [Reg.vram] := by decide) : s.same t r := h r hr
  cases t
  simp only [State.setVram, State.mk.injEq]
  exact ⟨hsame .plat, hsame .cfg, trivial, hsame .latch, hsame .tile, hsame .egcSrc, hsame .egcLast, hsame .srcMask,
    hsame .sh, hsame .buf, hsame .logged, hsame .binding, hsame .cyclesLeft, hsame .out, hsame .input⟩

/-- Two states that differ from a third in VRAM only, both VRAMs in canonical form, are the same where they read alike. -/
theorem State.eq_of_vramAt {s t u : State} (ht : s.keepsBut [.vram] t) (hu : s.keepsBut [.vram] u)
    (hwt : t.vram.wf = true) (hwu : u.vram.wf = true) (h : ∀ x, t.vramAt x = u.vramAt x) : t = u := by
  rw [ht.eq_setVram, hu.eq_setVram, Memory.ext_of_wf hwt hwu h]

/-- Where the wide access reaches the places of its bytes' own flat addresses it stores what the byte writes store. -/
theorem linearStore_eq_writeBytes {s : State} (hs : s.Inv) {h : Tag} {w : Width} {addr : Word}
    (hlike : s.likeBytes h s.binding.bankWriteFull (widthBytes w) addr) (data : Word) :
    s.linearStore h w addr data = writeBytes (linearPut h) (widthBytes w) addr data s := by
  rw [writeBytes_linearPut h s _ _ _ s rfl rfl]
  refine State.eq_of_vramAt (s := s) (linearWrite_keeps _ _ _ _ _ _) ?_ (hs.linearWrite _ _ _ _ _).vramWf ?_ fun x => ?_
  · exact writeBytes_preserves (s.keepsBut [.vram]) _ (fun _ _ t ht => ht.trans (t.keepsBut_setVram _)) _ _ _ _
      (s.keepsBut_refl _)
  · exact (hs.writeBytes (fun _ _ _ ht => ht.putByte _ _) _ _ _).vramWf
  · rw [writeBytes_vramAt (fun y => linearPlace h (s.linearAt h s.binding.bankWriteFull y)) x _ _ _ s hs.vramWf]
    refine (linearWrite_vramAt _ _ w addr data hs.vramWf x).trans (List.foldl_ext _ _ _ fun b k hk => ?_)
    exact if_congr (Eq.congr (hlike.byteOffset (List.mem_range.1 hk)) rfl) rfl rfl

/-- The byte rows of a decomposed write, chained: they leave what the wide write leaves, but for the debits. -/
theorem WritesBy.byteWrites {h : Tag} {f : Word → Byte → State → State} (hf : WritesBy h f) (s : State) (w : Width)
    (addr data : Word) : ∃ u, byteWrites h (widthBytes w) addr data s u ∧
      finishWrite (.next (writeBytes f (widthBytes w) addr data s.debitWrite)) =
        .next (u.setCyclesLeft (s.cyclesLeft - s.plat.writeDelay)) := by
  obtain ⟨t0, t1, t2, t3, h0, h1, h2, h3, hcycles, hword, hdword⟩ := hf.four s addr data
  rw [← hcycles]
  cases w with
  | byte => exact ⟨t0, ⟨t0, h0, rfl⟩, (hf.byte addr data s).symm.trans h0⟩
  | word => exact ⟨t1, ⟨t0, h0, t1, h1, rfl⟩, hword⟩
  | dword =>
    refine ⟨t3, ⟨t0, h0, t1, h1, t2, ?_, t3, ?_, rfl⟩, hdword⟩
    · simpa [BitVec.add_assoc, ← BitVec.shiftRight_add] using h2
    · simpa [BitVec.add_assoc, ← BitVec.shiftRight_add] using h3

/-- Settles O24: the value and the store byte by byte, at the offsets of R76; and where those are the places of the bytes'
own flat addresses, the byte rows give and leave the same. -/
theorem wideByteLinearIsBytes : Obligations.WideByteLinearIsBytes := by
  unfold Obligations.WideByteLinearIsBytes
  intro s h w addr data hs hh n nth offset likeBytes
  refine ⟨s.debitRead.linearValue h w addr, (s.debitWrite.linearStore h w addr data).setOut .none,
    exec_busRd_byteLinear hh w addr s, exec_busWr_byteLinear hh w addr data s,
    fun k hk => byteOf_linearValue s h w addr hk, linearStore_vramAt hs h w addr data,
    linearStore_cyclesLeft s h w addr data, rfl, linearStore_setOut_keeps s h w addr data .none, ?_, ?_⟩
  · intro hlike k hk
    have hoffset := State.likeBytes.byteOffset (w := w) hlike hk
    rw [exec_busRd_byteLinear_byte hh, byteOf_linearValue s h w addr hk, hoffset]
  · intro hlike
    obtain ⟨u, hu, hwide⟩ := (byteLinear_writesBy hh).byteWrites s w addr data
    have hstore : s.debitWrite.linearStore h w addr data =
        writeBytes (linearPut h) (widthBytes w) addr data s.debitWrite :=
      linearStore_eq_writeBytes hs.debitWrite hlike data
    exact ⟨u, hu, Host.Outcome.next.inj (hstore ▸ hwide)⟩

end Sys2Proof.Machine
end

section
/-! The decoder undoes the encoder (R101, R102, R105): operations with an op byte, bus rows, graphics rows, catch-all rows,
and then every row, format by format. -/

namespace Sys2Proof

open Machine

/-! ### Operations with an op byte (R101, R102) -/

theorem CfgField.id_lt (f : CfgField) : f.id < 0x40 := by
  cases f with
  | msw k => exact Nat.lt_trans (Nat.add_lt_add_left k.isLt 0x24) (by decide)
  | _ => decide

/-- The configuration field of an address word that holds its id (R103). -/
theorem decodeOp_cfg (f : CfgField) (y : Word) : decodeOp 0x80#8 (BitVec.ofNat 32 f.id) y = .ok (.cfg f y) := by
  have hid : (BitVec.ofNat 32 f.id).toNat = f.id := Nat.mod_eq_of_lt (Nat.lt_trans f.id_lt (by decide))
  simp [decodeOp, hid]

/-- The tile register of an address word that holds its plane (R102). -/
theorem decodeOp_tileLoad (p : Plane) (y : Word) :
    decodeOp 0x84#8 (packPlane p) y = .ok (.tileLoad p (y.setWidth 16)) := by
  have hp : (packPlane p).toNat < 4 := Nat.lt_of_le_of_lt (Nat.mod_le _ _) p.isLt
  simp [decodeOp, hp]

/-- Op byte, address and data of an instruction are read back as that instruction. -/
theorem decodeOp_of_encodeOp {i : Instr} {op : Byte} {x y : Word} (h : encodeOp i = some (op, x, y)) :
    decodeOp op x y = .ok i := by
  cases i <;> cases h
  case cfg f => exact decodeOp_cfg f _
  case tileLoad p v => simp [decodeOp_tileLoad]
  all_goals simp [decodeOp]

/-- The rows of format 11 are the operations with an op byte. -/
theorem decodeFrame_envFrame (pat : Option Byte) (op : Byte) (x y : Word) :
    decodeFrame pat (envFrame op x y) = decodeOp op x y := by
  have hfmt : (envFrame op x y).sel.extractLsb' 12 4 = 11#4 := BitVec.extractLsb'_append_eq_of_le (by decide)
  have hop : (envFrame op x y).sel.extractLsb' 0 8 = op := BitVec.extractLsb'_append_eq_right
  rw [decodeFrame, hfmt]
  exact congrArg (fun b => decodeOp b x y) hop

/-! ### Bus rows (R104, R105) -/

/-- The three fields of a bus row's selector word are its tag, its direction and its width. -/
theorem decodeFrame_busFrame (pat : Option Byte) (t : Tag) (wr : Bool) (w : Width) (x y : Word) :
    decodeFrame pat (busFrame t wr w x y) = .ok (if wr then Instr.busWr w x y t else Instr.busRd w x t) := by
  have ht := t.code_lt
  have hw := w.code_lt
  have hfmt : ((busFrame t wr w x y).sel.extractLsb' 12 4).toNat = 0 := by
    cases wr <;> simp [busFrame, Nat.shiftRight_eq_div_pow] <;> omega
  have htag : ((busFrame t wr w x y).sel.extractLsb' 8 4).toNat = t.code := by
    cases wr <;> simp [busFrame, Nat.shiftRight_eq_div_pow] <;> omega
  have hwidth : ((busFrame t wr w x y).sel.extractLsb' 0 2).toNat = w.code := by
    cases wr <;> simp [busFrame] <;> omega
  have hdir : (busFrame t wr w x y).sel.getLsbD 2 = wr := by
    cases wr <;>
      simp [busFrame, BitVec.getLsbD_ofNat, Nat.testBit_eq_decide_div_mod_eq, -BitVec.getLsbD_eq_getElem] <;>
      omega
  rw [decodeFrame, hfmt]
  simp only [decodeBus, htag, hwidth, hdir, Tag.ofCode_code, Width.ofCode_code]
  rfl

/-! ### The format number (R105) -/

section
variable (pat : Option Byte) {sel : Half} {x y : Word}

theorem decodeFrame_wmode (h : sel.extractLsb' 12 4 = 1#4) : decodeFrame pat ⟨sel, x, y⟩ = decodeWmode ⟨sel, x, y⟩ := by
  simp only [decodeFrame, h]
  rfl

theorem decodeFrame_vop (h : sel.extractLsb' 12 4 = 5#4) : decodeFrame pat ⟨sel, x, y⟩ = decodeVop ⟨sel, x, y⟩ := by
  simp only [decodeFrame, h]
  rfl

theorem decodeFrame_egcrop (h : sel.extractLsb' 12 4 = 6#4) :
    decodeFrame pat ⟨sel, x, y⟩ = decodeEgcrop pat ⟨sel, x, y⟩ := by
  simp only [decodeFrame, h]
  rfl

end

/-! ### Graphics rows (R112) -/

/-- Format 5 reads the low nibble of its selector word as `vop_mode`, by the table of R112. -/
theorem decodeVop_eq (f : Frame) : decodeVop f =
    .ok (if f.sel.getLsbD 4 then vopWrRow (f.sel.extractLsb' 0 4) (portWidth f.y) (f.x.setWidth 18) (portValue f.y)
      else vopRdRow (f.sel.extractLsb' 0 4) (portWidth f.y) (f.x.setWidth 18)) := by
  have hbit : ∀ i < 4, f.sel.getLsbD i = (f.sel.extractLsb' 0 4).getLsbD i := fun i hi => by
    simp [hi, -BitVec.getLsbD_eq_getElem]
  have hpart : ∀ i k, i + k ≤ 4 → f.sel.extractLsb' i k = (f.sel.extractLsb' 0 4).extractLsb' i k := fun i k hik =>
    (BitVec.extractLsb'_extractLsb'_of_le hik).symm
  unfold decodeVop vopWrRow vopRdRow
  rw [hbit 3 (by decide), hbit 2 (by decide), hbit 1 (by decide), hpart 0 3 (by decide), hpart 0 1 (by decide),
    hpart 2 1 (by decide)]
  generalize f.sel.extractLsb' 0 4 = mode
  have hpass : mode.toNat ≤ 7 ↔ mode.getLsbD 3 = false := by revert mode; decide
  have hcopy : mode = 8#4 ∨ mode = 9#4 ↔
      mode.getLsbD 3 = true ∧ mode.getLsbD 2 = false ∧ mode.getLsbD 1 = false := by revert mode; decide
  have hmask : mode = 0xC#4 ∨ mode = 0xD#4 ↔
      mode.getLsbD 3 = true ∧ mode.getLsbD 2 = true ∧ mode.getLsbD 1 = false := by revert mode; decide
  simp only [hpass, hcopy, hmask, BitVec.setWidth_eq_extractLsb' (show 1 ≤ 4 by decide),
    BitVec.setWidth_eq_extractLsb' (show 3 ≤ 4 by decide)]
  cases mode.getLsbD 3 <;> cases mode.getLsbD 2 <;> cases mode.getLsbD 1 <;> simp

theorem decodeFrame_vopRd (pat : Option Byte) (mode : BitVec 4) (x y : Word) :
    decodeFrame pat ⟨0x500#12 ++ mode, x, y⟩ = .ok (vopRdRow mode (portWidth y) (x.setWidth 18)) := by
  have hmode : (0x500#12 ++ mode).extractLsb' 0 4 = mode := BitVec.extractLsb'_append_eq_right
  have hdir : (0x500#12 ++ mode).getLsbD 4 = false := by revert mode; decide
  rw [decodeFrame_vop pat (BitVec.extractLsb'_append_eq_of_le (by decide)), decodeVop_eq]
  simp only [hmode, hdir, Bool.false_eq_true, if_false]

theorem decodeFrame_vopWr (pat : Option Byte) (mode : BitVec 4) (x y : Word) :
    decodeFrame pat ⟨0x501#12 ++ mode, x, y⟩ = .ok (vopWrRow mode (portWidth y) (x.setWidth 18) (portValue y)) := by
  have hmode : (0x501#12 ++ mode).extractLsb' 0 4 = mode := BitVec.extractLsb'_append_eq_right
  have hdir : (0x501#12 ++ mode).getLsbD 4 = true := by revert mode; decide
  rw [decodeFrame_vop pat (BitVec.extractLsb'_append_eq_of_le (by decide)), decodeVop_eq]
  simp only [hmode, hdir, if_true]

section
variable (n : PortWidth) (off : BitVec 18)

theorem vopRows_pass (m : BitVec 3) :
    vopRdRow (0#1 ++ m) n off = .vopPassRd m n off ∧ ∀ v, vopWrRow (0#1 ++ m) n off v = .vopPassWr m n off v := by
  have hrow : (0#1 ++ m).toNat ≤ 7 := by revert m; decide
  have hfree : (0#1 ++ m).setWidth 3 = m := by revert m; decide
  simp only [vopRdRow, vopWrRow, hrow, hfree, implies_true, if_true, and_self]

theorem vopRows_tileCopy (m : BitVec 1) :
    vopRdRow (0b100#3 ++ m) n off = .vopTileCopyRd m n off ∧
      ∀ v, vopWrRow (0b100#3 ++ m) n off v = .vopTileCopyWr m n off v := by
  have hrow : ¬ (0b100#3 ++ m).toNat ≤ 7 ∧ (0b100#3 ++ m = 8#4 ∨ 0b100#3 ++ m = 9#4) := by revert m; decide
  have hfree : (0b100#3 ++ m).setWidth 1 = m := by revert m; decide
  simp only [vopRdRow, vopWrRow, hrow, hfree, if_true, if_false, implies_true, and_self]

theorem vopRows_tileMask (m : BitVec 1) :
    vopRdRow (0b110#3 ++ m) n off = .vopTileMaskRd m n off ∧
      ∀ v, vopWrRow (0b110#3 ++ m) n off v = .vopTileMaskWr m n off v := by
  have hrow : ¬ (0b110#3 ++ m).toNat ≤ 7 ∧ ¬ (0b110#3 ++ m = 8#4 ∨ 0b110#3 ++ m = 9#4) ∧
      (0b110#3 ++ m = 0xC#4 ∨ 0b110#3 ++ m = 0xD#4) := by revert m; decide
  have hfree : (0b110#3 ++ m).setWidth 1 = m := by revert m; decide
  simp only [vopRdRow, vopWrRow, hrow, hfree, if_true, if_false, implies_true, and_self]

/-- The mode of an EGC row: bits 3 and 1 set, the row's free bits in bits 2 and 0. -/
def egcMode (m : BitVec 2) : BitVec 4 := (1#1 ++ m.extractLsb' 1 1) ++ (1#1 ++ m.extractLsb' 0 1)

theorem vopRows_egc (m : BitVec 2) :
    vopRdRow (egcMode m) n off = .vopEgcRd m n off ∧ ∀ v, vopWrRow (egcMode m) n off v = .vopEgcWr m n off v := by
  have hrow : ¬ (egcMode m).toNat ≤ 7 ∧ ¬ (egcMode m = 8#4 ∨ egcMode m = 9#4) ∧
      ¬ (egcMode m = 0xC#4 ∨ egcMode m = 0xD#4) := by revert m; decide
  have hfree : (egcMode m).extractLsb' 2 1 ++ (egcMode m).extractLsb' 0 1 = m := by revert m; decide
  simp only [vopRdRow, vopWrRow, hrow, hfree, if_false, implies_true, and_self]
end

/-! ### Operands -/

theorem planeOf_packPlane_or (p : Plane) (b : Bool) : planeOf (packPlane p ||| packBit b 2) = p := by
  revert p b; decide

theorem packBit_getLsbD_self (b : Bool) {k : Nat} (hk : k < 32) : (packBit b k).getLsbD k = b := by
  cases b <;> simp [packBit, hk]

theorem packPlane_getLsbD_two (p : Plane) : (packPlane p).getLsbD 2 = false := by revert p; decide

theorem word_halves (lo hi : Half) :
    BitVec.extractLsb' 0 16 (hi ++ lo : Word) = lo ∧ BitVec.extractLsb' 16 16 (hi ++ lo : Word) = hi :=
  ⟨BitVec.extractLsb'_append_eq_right, BitVec.extractLsb'_append_eq_left⟩

theorem Tag.ofCode_operand (t : Tag) : Tag.ofCode ((BitVec.ofNat 32 t.code).extractLsb' 0 4).toNat = some t := by
  cases t <;> rfl

/-! ### Formats with an eight-bit code -/

theorem decodeFrame_wmUnsup (pat : Option Byte) {mode : Byte} (h : 4 ≤ mode.toNat) (x y : Word) :
    decodeFrame pat ⟨0x10#8 ++ mode, x, y⟩ = .ok (.wmUnsup mode (x.setWidth 8)) := by
  have hmode : (0x10#8 ++ mode).extractLsb' 0 8 = mode := BitVec.extractLsb'_append_eq_right
  rw [decodeFrame_wmode pat (BitVec.extractLsb'_append_eq_of_le (by decide))]
  simp only [decodeWmode, hmode]
  split
  case h_5 => rfl
  all_goals omega

/-- A code of no named entry is the pattern-gated entry where the parameter names it, else the stub (R114, R294). -/
theorem decodeFrame_egcrop_unnamed (pat : Option Byte) {code : Byte} (h : namedRopCodes.contains code = false)
    (x y : Word) : decodeFrame pat ⟨0x60#8 ++ code, x, y⟩ =
      .ok (if pat = some code then .egcropPat code (x.setWidth 15) else .egcropStub code (x.setWidth 15)) := by
  have hcode : (0x60#8 ++ code).extractLsb' 0 8 = code := BitVec.extractLsb'_append_eq_right
  obtain ⟨hC0, hF0, hFC, h0C⟩ : code ≠ 0xC0#8 ∧ code ≠ 0xF0#8 ∧ code ≠ 0xFC#8 ∧ code ≠ 0x0C#8 := by
    simpa [namedRopCodes] using h
  rw [decodeFrame_egcrop pat (BitVec.extractLsb'_append_eq_of_le (by decide))]
  simp only [decodeEgcrop, hcode, hC0, hF0, hFC, h0C, if_false]
  split <;> rfl

/-! ### Every row -/

/-- A frame's selector word is evaluated on its own: with the operands in the same term the kernel would not compute its
fields as numbers. -/
theorem decodeFrame_of_sel {pat : Option Byte} {f : Frame} {w : Half} {x y : Word} {r : Except DecodeError Instr}
    (hf : f = ⟨w, x, y⟩) (h : ∀ sel, sel = w → decodeFrame pat ⟨sel, x, y⟩ = r) : decodeFrame pat f = r :=
  hf ▸ h w rfl

/-- The frame of a well-formed instruction is decoded as that instruction, format by format (R105). -/
theorem decodeFrame_encodeFrame {pat : Option Byte} {i : Instr} (h : i.wf pat = true) :
    decodeFrame pat (encodeFrame i) = .ok i := by
  cases i with
  | rd8 | rd16 | rd32 | wr8 | wr16 | wr32 | cfg | dispatch | reset | egcReinit | tileLoad =>
    exact (decodeFrame_envFrame pat _ _ _).trans (decodeOp_of_encodeOp rfl)
  | unmappedRd | unmappedWr | unchainedRd | unchainedWr | chainedEgaRd | chainedEgaWr | chainedVgaRd | chainedVgaWr
  | chainedVgaSlowRd | chainedVgaSlowWr | chainedVgaEt4kRd | chainedVgaEt4kWr | chainedVgaEt4kSlowRd
  | chainedVgaEt4kSlowWr | linearRd | linearWr | pc98Rd | pc98Wr | textRd | textWr | cgaSnowTextRd | cgaSnowTextWr
  | herculesRd | herculesWr | tandyRd | tandyWr | pcjrRd | pcjrWr | amstradRd | amstradWr =>
    exact decodeFrame_busFrame pat _ _ _ _ _
  | wm0 | wm1 | wm2 | wm3 =>
    refine decodeFrame_of_sel rfl fun sel hsel => ?_
    simp [decodeFrame, decodeWmode, hsel]
  | wmUnsup mode val =>
    exact (decodeFrame_wmUnsup pat (of_decide_eq_true h) _ _).trans (by simp)
  | rm0 | rm1 =>
    refine decodeFrame_of_sel rfl fun sel hsel => ?_
    simp [decodeFrame, decodeRmode, hsel, planeOf_packPlane_or, packPlane_getLsbD_two, packBit_getLsbD_self,
      -BitVec.getLsbD_eq_getElem]
  | ropNone | ropAnd | ropOr | ropXor =>
    refine decodeFrame_of_sel rfl fun sel hsel => ?_
    simp [decodeFrame, decodeRopsel, hsel]
  | winsel0 | winsel1 | winsel2 | winsel3 =>
    refine decodeFrame_of_sel rfl fun sel hsel => ?_
    simp only [decodeFrame, decodeWinsel, hsel, Tag.ofCode_operand]
    simp
  | vopPassRd m n off => exact (decodeFrame_vopRd pat _ _ _).trans (by simp [vopRows_pass])
  | vopPassWr m n off v => exact (decodeFrame_vopWr pat _ _ _).trans (by simp [vopRows_pass])
  | vopTileCopyRd m n off => exact (decodeFrame_vopRd pat _ _ _).trans (by simp [vopRows_tileCopy])
  | vopTileCopyWr m n off v => exact (decodeFrame_vopWr pat _ _ _).trans (by simp [vopRows_tileCopy])
  | vopTileMaskRd m n off => exact (decodeFrame_vopRd pat _ _ _).trans (by simp [vopRows_tileMask])
  | vopTileMaskWr m n off v => exact (decodeFrame_vopWr pat _ _ _).trans (by simp [vopRows_tileMask])
  | vopEgcRd m n off => exact (decodeFrame_vopRd pat (egcMode m) _ _).trans (by simp [vopRows_egc])
  | vopEgcWr m n off v => exact (decodeFrame_vopWr pat (egcMode m) _ _).trans (by simp [vopRows_egc])
  | egcropC0 | egcropF0 | egcropFC | egcrop0C =>
    refine decodeFrame_of_sel rfl fun sel hsel => ?_
    simp [decodeFrame, decodeEgcrop, hsel]
  | egcropPat code a =>
    simp only [Instr.wf, Bool.and_eq_true, beq_iff_eq, Bool.not_eq_true'] at h
    exact (decodeFrame_egcrop_unnamed pat h.2 _ _).trans (by simp [h.1])
  | egcropStub code a =>
    simp only [Instr.wf, Bool.and_eq_true, bne_iff_ne, Bool.not_eq_true'] at h
    exact (decodeFrame_egcrop_unnamed pat h.2 _ _).trans (by simp [h.1])
  | egcLs0 | egcLs1 | egcLs2 | egcLs3 =>
    refine decodeFrame_of_sel rfl fun sel hsel => ?_
    simp [decodeFrame, decodeLsrc, hsel]
  | egcFgc0 | egcFgc1 | egcFgc2 | egcFgc3 => rfl
  | egcRlNone | egcRlWrite =>
    refine decodeFrame_of_sel rfl fun sel hsel => ?_
    simp [decodeFrame, decodeRegload, hsel]
  | egcRlRead both =>
    refine decodeFrame_of_sel rfl fun sel hsel => ?_
    cases both <;> simp [decodeFrame, decodeRegload, hsel]
  | pc98MswRd | pc98MswWr | pc98CharRd | pc98CharWr | pc98AttrRd | pc98AttrWr | pc98UnknownRd | pc98UnknownWr
  | pc98AbsentRd | pc98AbsentWr | pc98GraphicsRd | pc98GraphicsWr =>
    refine decodeFrame_of_sel rfl fun sel hsel => ?_
    simp [decodeFrame, decodeRegion, hsel]
  | shReinit | shOut16 | shDmask => rfl
  | shIn8 =>
    refine decodeFrame_of_sel rfl fun sel hsel => ?_
    simp [decodeFrame, decodeShift, hsel, byteOf_le32, packBit_getLsbD_self, -BitVec.getLsbD_eq_getElem]
  | shIn16 =>
    refine decodeFrame_of_sel rfl fun sel hsel => ?_
    simp [decodeFrame, decodeShift, hsel, word_halves]
  | shOut8 ln r =>
    cases ln <;> cases r <;> rfl
  | dispUnmapped | dispUnchained | dispChainedEga | dispChainedVga | dispChainedVgaSlow | dispChainedVgaEt4k
  | dispChainedVgaEt4kSlow | dispLinear | dispPc98 | dispText | dispCgaSnowText | dispHercules | dispTandy | dispPcjr
  | dispAmstrad => rfl

/-- Settles O1: the ten bytes are the frame's, and the frame is read back format by format. -/
theorem decodeOfEncode : Obligations.DecodeOfEncode := by
  unfold Obligations.DecodeOfEncode
  intro pat i h
  rw [encode, decode_bytes, decodeFrame_encodeFrame h]

end Sys2Proof
end

section
/-! The nine-byte records (R101, R102) and a few encodings written out. -/

namespace Sys2Proof.Machine

/-- The op bytes R101 and R102 leave unassigned are refused by name, whatever address and data hold. -/
theorem decodeOp_unassigned {op : Byte}
    (h : op = 0x03#8 ∨ op = 0x07#8 ∨ (0x08 ≤ op.toNat ∧ op.toNat ≤ 0x7F) ∨ 0x85 ≤ op.toNat) (x y : Word) :
    decodeOp op x y = .error (.unassignedOp op) := by
  have hop : op.toNat = 0x03 ∨ op.toNat = 0x07 ∨ (0x08 ≤ op.toNat ∧ op.toNat ≤ 0x7F) ∨ 0x85 ≤ op.toNat :=
    h.imp (congrArg BitVec.toNat) (Or.imp_left (congrArg BitVec.toNat))
  unfold decodeOp
  split
  case h_12 => rfl
  all_goals omega

/-- Settles O2: a record decodes as its op byte, address and data do; those of an assigned op byte as its operation's. -/
theorem recordFormat : Obligations.RecordFormat := by
  unfold Obligations.RecordFormat
  intro x y
  simp only [decodeRecord_bytes]
  refine ⟨rfl, rfl, rfl, rfl, rfl, rfl, ?_, rfl, rfl, rfl, ?_, ?_⟩
  · rintro f rfl
    exact decodeOp_cfg f y
  · rintro p rfl
    exact decodeOp_tileLoad p y
  · intro op hop s rest hs
    exact step_of_not_decoded hs ((decodeRecord_bytes op x y).trans (decodeOp_unassigned hop x y))

/-- Settles O3: six closed encodings, each evaluated. -/
theorem decodedWords : Obligations.DecodedWords := by
  unfold Obligations.DecodedWords
  decide

end Sys2Proof.Machine
end

section
/-! CFG (R103): what a configuration field holds after one is written. -/

namespace Sys2Proof.Machine

theorem getLsbD_zero_toNat (v : Word) : (v.getLsbD 0).toNat = v.toNat % 2 :=
  (Nat.toNat_testBit v.toNat 0).trans (by simp)

theorem DisplayMode.ofCode_of_unlisted {k : Nat} (h : 9 < k) : DisplayMode.ofCode k = .other := by
  unfold DisplayMode.ofCode
  split
  case h_11 => rfl
  all_goals omega

/-- The four words of a colour's expansion (R41). -/
theorem colourQuad_words (v : Word) :
    let q := colourQuad (v.setWidth 4)
    [q.p0.toNat, q.p1.toNat, q.p2.toNat, q.p3.toNat] =
      [if v.toNat.testBit 0 then 0xFFFF else 0, if v.toNat.testBit 1 then 0xFFFF else 0,
       if v.toNat.testBit 2 then 0xFFFF else 0, if v.toNat.testBit 3 then 0xFFFF else 0] := by
  have hword : ∀ i < 4, (if (v.setWidth 4).getLsbD i then 0xFFFF#16 else 0x0000#16).toNat =
      if v.toNat.testBit i then 0xFFFF else 0 := fun i hi => by
    rw [BitVec.getLsbD_setWidth, decide_eq_true hi, Bool.true_and]
    exact apply_ite BitVec.toNat _ _ _
  exact congrArg₂ List.cons (hword 0 (by decide)) <| congrArg₂ List.cons (hword 1 (by decide)) <|
    congrArg₂ List.cons (hword 2 (by decide)) <| congrArg₂ List.cons (hword 3 (by decide)) rfl

/-- The written field holds the value truncated to its width (R34, R36, R38 to R41). -/
theorem ExtConfig.get_put_self (c : ExtConfig) (f : CfgField) (v : Word) :
    (c.put f v).get f = f.truncated v.toNat := by
  cases f with
  | writeMode | bitMask | egcRop | rasterOp | readMapSelect | windowSelect | egcFgc | egcLeadPlane | egcLightsource
  | egcRegload | dataRotate | mapMask | setReset | enableSetReset | colorCompare | colorDontCare | vopMode | chEn
  | egcAccess | shiftSrcbit | shiftDstbit | shiftLength | egcMask | bankRead | bankWrite | bankSize =>
    simp [ExtConfig.put, ExtConfig.get, CfgField.truncated]
  | readMode | oddEven | chained | compatibleChain4 | vopAccess | analog16 | egcCompareLead | egcShiftinput
  | shiftDescend => exact congrArg (fun bit => [bit]) (getLsbD_zero_toNat v)
  | msw k => simp [ExtConfig.put, ExtConfig.get, CfgField.truncated]
  | displayMode =>
    simp only [ExtConfig.put, ExtConfig.get, CfgField.truncated]
    generalize v.toNat = k
    by_cases hk : k ≤ 9
    · interval_cases k <;> rfl
    · rw [DisplayMode.ofCode_of_unlisted (by omega), if_neg hk]
  | egcForeground | egcBackground => exact colourQuad_words v

/-- The other fields hold what they held: each is a component of the record of its own. -/
theorem ExtConfig.get_put_of_ne (c : ExtConfig) {f g : CfgField} (v : Word) (h : g ≠ f) :
    (c.put f v).get g = c.get g := by
  cases f with
  | msw k =>
    cases g with
    | msw j =>
      have hkj : k.val ≠ j.val := fun e => h (congrArg _ (Fin.ext e).symm)
      simp [ExtConfig.put, ExtConfig.get, hkj]
    | _ => rfl
  | _ => cases g <;> first | rfl | exact absurd rfl h

/-- Settles O12: what the fields hold after the write, and the frame of the row. -/
theorem cfgWritesOneField : Obligations.CfgWritesOneField := by
  unfold Obligations.CfgWritesOneField
  intro s f v
  exact ⟨_, rfl, s.cfg.get_put_self f v, fun g hg => s.cfg.get_put_of_ne v hg, rfl, exec_keeps (i := .cfg f v) rfl⟩

end Sys2Proof.Machine
end

section
/-! The decode of a PC-98 address (R110, R112, R212, R213, R222): the decoder's access is its region's row, and the graphics
row the VRAM operation of `vop_mode`. -/

namespace Sys2Proof.Machine

/-! ### Regions (R110, R212, R213) -/

theorem fold_eq_regionOffset (addr : Word) : fold addr = regionOffset addr := by
  have hoverlay : (addr &&& 0x7FFF#32).toNat = addr.toNat % 0x8000 := Nat.and_two_pow_sub_one_eq_mod addr.toNat 15
  have hmain : (addr &&& 0x1FFFF#32).toNat = addr.toNat % 0x20000 := Nat.and_two_pow_sub_one_eq_mod addr.toNat 17
  rw [fold, regionOffset, hoverlay, hmain]

/-- The row of a decoder read in a region. -/
def regionRd (n : PortWidth) (addr : Word) : Region → Instr
  | .msw => .pc98MswRd n addr
  | .char => .pc98CharRd n addr
  | .attr => .pc98AttrRd n addr
  | .unknown => .pc98UnknownRd n addr
  | .absent => .pc98AbsentRd n addr
  | .graphics => .pc98GraphicsRd n addr

/-- The row of a decoder write in a region. -/
def regionWr (n : PortWidth) (addr : Word) (v : Half) : Region → Instr
  | .msw => .pc98MswWr n addr v
  | .char => .pc98CharWr n addr v
  | .attr => .pc98AttrWr n addr v
  | .unknown => .pc98UnknownWr n addr v
  | .absent => .pc98AbsentWr n addr v
  | .graphics => .pc98GraphicsWr n addr v

/-- The region of an address, by the tests of R212. -/
theorem regionOf_eq (addr : Word) : regionOf addr =
    if addr &&& ~~~0x1F#32 = 0xA3FE0#32 then .msw
    else if regionOffset addr >>> 13 = 0 then .char
    else if regionOffset addr >>> 13 = 1 then .attr
    else if regionOffset addr >>> 13 = 2 then .unknown
    else if regionOffset addr >>> 13 = 3 then .absent
    else .graphics := by
  rw [regionOf, fold_eq_regionOffset, Nat.shiftRight_eq_div_pow, show 2 ^ 13 = 0x2000 from rfl]
  refine if_congr Iff.rfl rfl ?_
  generalize regionOffset addr / 0x2000 = window
  match window with
  | 0 | 1 | 2 | 3 => rfl
  | k + 4 => simp

theorem regionRdRow_eq (n : PortWidth) (addr : Word) : regionRdRow n addr = regionRd n addr (regionOf addr) := by
  simp only [regionRdRow, regionOf_eq, apply_ite (regionRd n addr)]
  rfl

theorem regionWrRow_eq (n : PortWidth) (addr : Word) (v : Half) :
    regionWrRow n addr v = regionWr n addr v (regionOf addr) := by
  simp only [regionWrRow, regionOf_eq, apply_ite (regionWr n addr v)]
  rfl

section
variable {n : PortWidth} {addr : Word} (h : alignedAt n addr.toNat) (s : State)
include h

theorem exec_regionRdRow : exec (regionRdRow n addr) s =
    .next ((portRead n addr s).2.setOut (Out.ofPort n (portRead n addr s).1)) := by
  rw [regionRdRow_eq, portRead, decoderRead, aligned_of h]
  cases regionOf addr <;> exact aligned_of h _

theorem exec_regionWrRow (v : Half) : exec (regionWrRow n addr v) s = .next ((portWrite n addr v s).setOut .none) := by
  rw [regionWrRow_eq, portWrite, decoderWrite, aligned_of h]
  cases regionOf addr <;> exact aligned_of h _

theorem exec_pc98Rd_port : exec (.pc98Rd n.width addr) s =
    .next ((portRead n addr s.debitRead).2.setOut (Out.ofPort n (portRead n addr s.debitRead).1)) := by
  have hsplit : directSplit n.width addr = (n, 1) := by cases n <;> rfl
  have hread : decoderReads n 1 addr s.debitRead =
      .next ((portRead n addr s.debitRead).1.setWidth 32, (portRead n addr s.debitRead).2) := by
    simp [decoderReads, decoderRead_of_aligned h]
  show execPc98Rd n.width addr s = _
  rw [execPc98Rd, hsplit, hread, finishRead, andThen_next]
  cases n <;> simp [PortWidth.width, Out.ofWidth, Out.ofPort]

theorem exec_pc98Wr_port (d : Word) : exec (.pc98Wr n.width addr d) s =
    .next ((portWrite n addr (cutTo n (d.setWidth 16)) s.debitWrite).setOut .none) := by
  have hsplit : directSplit n.width addr = (n, 1) := by cases n <;> rfl
  show execPc98Wr n.width addr d s = _
  rw [execPc98Wr, hsplit, decoderWrites, decoderWrite_of_aligned h]
  rfl

end

/-- Settles O31: row and decoder access are the same aligned access of the region, on the state after the debit. -/
theorem pc98Decode : Obligations.Pc98Decode := by
  unfold Obligations.Pc98Decode
  exact fun s n addr d h => ⟨⟨_, exec_regionRdRow h s.debitRead, exec_pc98Rd_port h s⟩,
    _, exec_regionWrRow h s.debitWrite _, exec_pc98Wr_port h s d⟩

/-! ### Graphics (R112, R222) -/

theorem regionOffset_lt (addr : Word) : regionOffset addr < 2 ^ 18 := by
  rw [← fold_eq_regionOffset, fold]
  split <;> omega

/-- The region offset has the parity of the address (R213). -/
theorem alignedAt_regionOffset {n : PortWidth} {addr : Word} (h : alignedAt n addr.toNat) :
    alignedAt n (regionOffset addr) := by
  refine h.imp_right fun heven => ?_
  rw [← fold_eq_regionOffset, fold]
  split <;> omega

/-- The graphics read by the table of R112: the modes of the last class are 0xA, 0xB, 0xE and 0xF. -/
theorem State.graphicsRead_eq (s : State) (off : Nat) (n : PortWidth) : s.graphicsRead off n =
    if s.cfg.pc98.vopMode.toNat ≤ 7 then (s.passRead off n, s)
    else if s.cfg.pc98.vopMode = 8#4 ∨ s.cfg.pc98.vopMode = 9#4 then (s.tileCopyRead (inPlane off) n, s)
    else if s.cfg.pc98.vopMode = 0xC#4 ∨ s.cfg.pc98.vopMode = 0xD#4 then (s.passRead off n, s)
    else s.egcRead off n := by
  have hlt : s.cfg.pc98.vopMode.toNat < 16 := s.cfg.pc98.vopMode.isLt
  unfold State.graphicsRead
  simp only [← BitVec.toNat_inj]
  generalize s.cfg.pc98.vopMode.toNat = mode at hlt ⊢
  interval_cases mode <;> rfl

/-- The graphics write by the table of R112. -/
theorem State.graphicsWrite_eq (s : State) (off : Nat) (n : PortWidth) (v : Half) : s.graphicsWrite off n v =
    if s.cfg.pc98.vopMode.toNat ≤ 7 then s.passWrite off n v
    else if s.cfg.pc98.vopMode = 8#4 ∨ s.cfg.pc98.vopMode = 9#4 then s.tileCopyWrite (inPlane off) n
    else if s.cfg.pc98.vopMode = 0xC#4 ∨ s.cfg.pc98.vopMode = 0xD#4 then s.tileMaskWrite (inPlane off) n v
    else s.egcWrite (inPlane off) n v := by
  have hlt : s.cfg.pc98.vopMode.toNat < 16 := s.cfg.pc98.vopMode.isLt
  unfold State.graphicsWrite
  simp only [← BitVec.toNat_inj]
  generalize s.cfg.pc98.vopMode.toNat = mode at hlt ⊢
  interval_cases mode <;> rfl

section
variable {n : PortWidth} {off : BitVec 18} (h : alignedAt n off.toNat) (s : State)
include h

theorem exec_vopRdRow : exec (vopRdRow s.cfg.pc98.vopMode n off) s =
    .next ((s.graphicsRead off.toNat n).2.setOut (Out.ofPort n (s.graphicsRead off.toNat n).1)) := by
  rw [State.graphicsRead_eq]
  unfold vopRdRow
  split_ifs <;> exact aligned_of h _

theorem exec_vopWrRow (v : Half) : exec (vopWrRow s.cfg.pc98.vopMode n off v) s =
    .next ((s.graphicsWrite off.toNat n v).setOut .none) := by
  rw [State.graphicsWrite_eq]
  unfold vopWrRow
  split_ifs <;> exact aligned_of h _

end

/-- Settles O36: region row and VOP row are the same aligned access at the region offset, which 18 bits hold. -/
theorem graphicsDispatch : Obligations.GraphicsDispatch := by
  unfold Obligations.GraphicsDispatch
  intro s n addr v h off
  have hoff : off.toNat = fold addr := by
    rw [fold_eq_regionOffset]
    exact Nat.mod_eq_of_lt (regionOffset_lt addr)
  have halign : alignedAt n off.toNat := by
    rw [hoff, fold_eq_regionOffset]
    exact alignedAt_regionOffset h
  refine ⟨⟨_, exec_vopRdRow halign s, ?_⟩, _, exec_vopWrRow halign s v, ?_⟩
  · rw [hoff]
    exact aligned_of h _
  · rw [hoff]
    exact aligned_of h _

end Sys2Proof.Machine
end

section
/-! The register loads of the EGC (R117, R281, R300, R306), lane by lane. -/

namespace Sys2Proof.Machine

/-! ### Byte lanes of a 16-bit register (R251, R281) -/

theorem getLane_append (hi lo : Byte) (ln : Bool) : getLane (hi ++ lo) ln = if ln then hi else lo := by
  cases ln
  · exact BitVec.extractLsb'_append_eq_right
  · exact BitVec.extractLsb'_append_eq_left

theorem getLane_setLane (x : Half) (ln k : Bool) (b : Byte) :
    getLane (setLane x ln b) k = if k = ln then b else getLane x k := by
  cases ln <;> cases k <;> exact getLane_append _ _ _

theorem setLane_setLane (x : Half) (ln : Bool) (b c : Byte) : setLane (setLane x ln b) ln c = setLane x ln c := by
  cases ln
  · exact congrArg (· ++ c) (getLane_setLane x false true b)
  · exact congrArg (c ++ ·) (getLane_setLane x true false b)

theorem setWidth_eq_getLane (v : Half) : v.setWidth 8 = getLane v false :=
  BitVec.setWidth_eq_extractLsb' (by decide)

theorem getLane_setWidth (b : Byte) : getLane (b.setWidth 16) false = b := by
  rw [← setWidth_eq_getLane]
  simp

/-- A write to part of a register loads the accessed lanes, a byte from the value's low lane, and keeps the other (R281). -/
theorem getLane_putSel (n : PortWidth) (ln k : Bool) (x v : Half) : getLane (putSel n ln x v) k =
    if n = .word then getLane v k else if k = ln then getLane v false else getLane x k := by
  cases n with
  | word => rfl
  | byte => exact (getLane_setLane x ln k _).trans (by simp [setWidth_eq_getLane])

/-- Of two writes to the same part of a register the later one stands. -/
theorem putSel_putSel (n : PortWidth) (ln : Bool) (x v w : Half) :
    putSel n ln (putSel n ln x v) w = putSel n ln x w := by
  cases n with
  | word => rfl
  | byte => exact setLane_setLane x ln _ _

/-- A lane of a register that takes the same part of another one. -/
theorem getLane_putSel_sel (n : PortWidth) (ln k : Bool) (x v : Half) :
    getLane (putSel n ln x (sel n ln v)) k = if n = .word ∨ k = ln then getLane v k else getLane x k := by
  rw [getLane_putSel]
  cases n with
  | word => simp [sel]
  | byte =>
    by_cases hk : k = ln
    · simp [hk, sel, getLane_setWidth]
    · simp [hk]

/-! ### Planes in VRAM (R85, R223) -/

theorem State.pa_eq_planeAddr (s : State) (p : Plane) (a : Nat) : s.pa p a = s.planeAddr p a := by
  fin_cases p <;> rfl

/-- A register that takes a decoder read holds the VRAM bytes of the access. -/
theorem loaded_putSel_pread (s : State) (o : Nat) (n : PortWidth) (ln : Bool) (x : Half) :
    loaded s o n ln x (putSel n ln x (s.pread o n)) := by
  cases n with
  | word => exact ⟨getLane_append _ _ false, getLane_append _ _ true⟩
  | byte =>
    constructor
    · rw [getLane_putSel]
      simp [State.pread, getLane_setWidth, State.vbyte_eq]
    · rw [getLane_putSel]
      simp

/-! ### The tile registers -/

section
variable (s : State) (a : Nat) (n : PortWidth)

theorem State.tilesFromLast_lane (p : Plane) (k : Bool) : getLane ((s.tilesFromLast a n).tile.get p) k =
    if n = .word ∨ k = laneOf a then getLane (s.egcLast.get p) k else getLane (s.tile.get p) k := by
  simp only [State.tilesFromLast, State.setTile_tile, Quad.putSel, Quad.selAll, Quad.get_ofFn, getLane_putSel_sel]

theorem State.tilesFromVram_loaded (p : Plane) :
    loaded s (s.pa p a) n (laneOf a) (s.tile.get p) ((s.tilesFromVram a n).tile.get p) := by
  simp only [State.tilesFromVram, State.setTile_tile, Quad.putSel, State.planeQuad, Quad.get_ofFn,
    State.pa_eq_planeAddr]
  exact loaded_putSel_pread s _ n _ _

/-- The load on write after the load on read is the load on write alone (R117, log entry 24). -/
theorem State.tilesFromLast_tilesFromVram : (s.tilesFromLast a n).tilesFromVram a n = s.tilesFromVram a n := by
  have htile : ((s.tilesFromLast a n).tilesFromVram a n).tile = (s.tilesFromVram a n).tile :=
    Quad.ext_get fun p => by
      simp only [State.tilesFromVram, State.tilesFromLast, State.setTile_tile, Quad.putSel, Quad.get_ofFn, putSel_putSel]
      rfl
  exact congrArg s.setTile htile

end

/-- Settles O46: the rows are the shared register loads; under both bits the second load covers the first. -/
theorem registerLoads : Obligations.RegisterLoads := by
  unfold Obligations.RegisterLoads
  intro s a n h
  have hread : exec (.egcRlRead false a n) s = .next ((s.tilesFromLast a.toNat n).setOut .none) := aligned_of h _
  have hwrite : exec (.egcRlWrite a n) s = .next ((s.tilesFromVram a.toNat n).setOut .none) := aligned_of h _
  have hboth : exec (.egcRlRead true a n) s = .next ((s.tilesFromVram a.toNat n).setOut .none) := by
    rw [← s.tilesFromLast_tilesFromVram]
    exact aligned_of h _
  exact ⟨rfl, ⟨_, hread, rfl, exec_keeps hread, s.tilesFromLast_lane a.toNat n⟩,
    _, hwrite, hboth, rfl, exec_keeps hwrite, s.tilesFromVram_loaded a.toNat n⟩

end Sys2Proof.Machine
end

section
/-! The raster engine (R130 to R138): planar words lane by lane, the four raster operations and the write modes bit by
bit. -/

namespace Sys2Proof.Machine

/-! ### Lanes of planar words (R12, R13) -/

theorem lane_getLsbD (w : Word) (p : Plane) {j : Nat} (hj : j < 8) :
    (lane w p).getLsbD j = w.getLsbD (8 * p.val + j) := by
  simp only [lane, BitVec.getLsbD_extractLsb', hj, decide_true, Bool.true_and]

theorem lane_le32 (b0 b1 b2 b3 : Byte) (p : Plane) : lane (le32 b0 b1 b2 b3) p = [b0, b1, b2, b3].getD p.val 0#8 :=
  byteOf_le32 b0 b1 b2 b3 p.val p.isLt

@[simp] theorem lane_expand (b : Byte) (p : Plane) : lane (expand b) p = b := by
  refine (lane_le32 b b b b p).trans ?_
  fin_cases p <;> rfl

@[simp] theorem lane_fill (n : BitVec 4) (p : Plane) : lane (fill n) p = fillLane (n.getLsbD p.val) := by
  refine (lane_le32 _ _ _ _ p).trans ?_
  fin_cases p <;> rfl

@[simp] theorem lane_laneMask (p q : Plane) : lane (laneMask p) q = fillLane (decide (q = p)) := by
  revert p q
  decide

@[simp] theorem lane_and (v w : Word) (p : Plane) : lane (v &&& w) p = lane v p &&& lane w p :=
  BitVec.extractLsb'_and

@[simp] theorem lane_or (v w : Word) (p : Plane) : lane (v ||| w) p = lane v p ||| lane w p :=
  BitVec.extractLsb'_or

@[simp] theorem lane_not (w : Word) (p : Plane) : lane (~~~w) p = ~~~lane w p := by
  refine BitVec.eq_of_getLsbD_eq fun j hj => ?_
  have hbit : 8 * p.val + j < 32 := by omega
  simp only [BitVec.getLsbD_not, lane_getLsbD _ _ hj, hj, hbit]

theorem fillLane_getLsbD (b : Bool) {j : Nat} (hj : j < 8) : (fillLane b).getLsbD j = b := by
  revert j
  cases b <;> decide

theorem fillLane_and (a b : Bool) : fillLane a &&& fillLane b = fillLane (a && b) := by
  cases a <;> cases b <;> rfl

/-- Selecting by a lane of ones or zeros takes the one byte or the other. -/
theorem select_fillLane (old new : Byte) (b : Bool) :
    (old &&& ~~~fillLane b) ||| (new &&& fillLane b) = if b then new else old := by
  cases b
  · show (old &&& BitVec.allOnes 8) ||| (new &&& 0#8) = old
    rw [BitVec.and_allOnes, BitVec.and_zero, BitVec.or_zero]
  · show (old &&& 0#8) ||| (new &&& BitVec.allOnes 8) = new
    rw [BitVec.and_allOnes, BitVec.and_zero, BitVec.zero_or]

/-- A rotated byte's bit `j` is the byte's bit `j + n` modulo 8 (R13, R141). -/
theorem ror8_getLsbD (v : Byte) (n : BitVec 3) {j : Nat} (hj : j < 8) :
    (ror8 v n).getLsbD j = v.getLsbD ((j + n.toNat) % 8) := by
  have hn : n.toNat < 8 := n.isLt
  simp only [ror8, BitVec.getLsbD_or, BitVec.getLsbD_ushiftRight, BitVec.getLsbD_shiftLeft, hj, decide_true,
    Bool.true_and]
  by_cases hwrap : j + n.toNat < 8
  · have hleft : j < 8 - n.toNat := by omega
    rw [Nat.mod_eq_of_lt hwrap, Nat.add_comm n.toNat]
    simp [hleft]
  · have hleft : ¬ j < 8 - n.toNat := by omega
    have hbit : (j + n.toNat) % 8 = j - (8 - n.toNat) := by omega
    rw [hbit, BitVec.getLsbD_of_ge v (n.toNat + j) (by omega)]
    simp [hleft]

/-! ### The raster operations (R130 to R133, R139) -/

section
variable (latch input mask : Word) {i : Nat}

theorem rasterNone_getLsbD (hi : i < 32) : (rasterNone latch input mask).getLsbD i =
    ropBit 0#2 (input.getLsbD i) (mask.getLsbD i) (latch.getLsbD i) := by
  simp only [rasterNone, ropBit, BitVec.getLsbD_or, BitVec.getLsbD_and, BitVec.getLsbD_not, hi, decide_true]
  cases mask.getLsbD i <;> simp

theorem rasterAnd_getLsbD (hi : i < 32) : (rasterAnd latch input mask).getLsbD i =
    ropBit 1#2 (input.getLsbD i) (mask.getLsbD i) (latch.getLsbD i) := by
  simp only [rasterAnd, ropBit, BitVec.getLsbD_or, BitVec.getLsbD_and, BitVec.getLsbD_not, hi, decide_true]
  cases mask.getLsbD i <;> simp

theorem rasterOr_getLsbD : (rasterOr latch input mask).getLsbD i =
    ropBit 2#2 (input.getLsbD i) (mask.getLsbD i) (latch.getLsbD i) := by
  simp only [rasterOr, ropBit, BitVec.getLsbD_or, BitVec.getLsbD_and]
  cases mask.getLsbD i <;> simp

theorem rasterXor_getLsbD : (rasterXor latch input mask).getLsbD i =
    ropBit 3#2 (input.getLsbD i) (mask.getLsbD i) (latch.getLsbD i) := by
  simp only [rasterXor, ropBit, BitVec.getLsbD_xor, BitVec.getLsbD_and]
  cases mask.getLsbD i <;> simp

end

/-- `RasterOp` at one bit: the operation `raster_op` selects (R139). -/
theorem State.rasterOp_getLsbD (s : State) (input mask : Word) {i : Nat} (hi : i < 32) :
    (s.rasterOp input mask).getLsbD i =
      ropBit s.cfg.planar.rasterOp (input.getLsbD i) (mask.getLsbD i) (s.latch.getLsbD i) := by
  unfold State.rasterOp
  split
  next h => rw [h, rasterNone_getLsbD _ _ _ hi]
  next h => rw [h, rasterAnd_getLsbD _ _ _ hi]
  next h => rw [h, rasterOr_getLsbD]
  next h => rw [h, rasterXor_getLsbD]

theorem State.lane_rasterOp (s : State) (input mask : Word) (p : Plane) {j : Nat} (hj : j < 8) :
    (lane (s.rasterOp input mask) p).getLsbD j = ropBit s.cfg.planar.rasterOp ((lane input p).getLsbD j)
      ((lane mask p).getLsbD j) ((lane s.latch p).getLsbD j) := by
  simp only [lane_getLsbD _ _ hj]
  exact s.rasterOp_getLsbD input mask (by omega)

/-- Settles O14: each row's word is its formula, which at a bit is `ropBit`. -/
theorem rasterOps : Obligations.RasterOps := by
  unfold Obligations.RasterOps
  intro s input mask
  exact ⟨_, _, _, _, rfl, rfl, rfl, rfl, fun i hi => ⟨rasterNone_getLsbD _ _ _ hi, rasterAnd_getLsbD _ _ _ hi,
    rasterOr_getLsbD _ _ _, rasterXor_getLsbD _ _ _⟩⟩

/-! ### The write modes (R134 to R138) -/

section
variable (s : State) (val : Byte) (p : Plane) {j : Nat} (hj : j < 8)
include hj

theorem State.lane_writeMode0 : (lane (s.writeMode0 val) p).getLsbD j = ropBit s.cfg.planar.rasterOp
    (if s.cfg.planar.enableSetReset.getLsbD p.val then s.cfg.planar.setReset.getLsbD p.val
      else val.getLsbD ((j + s.cfg.planar.dataRotate.toNat) % 8))
    (s.cfg.planar.bitMask.getLsbD j) ((lane s.latch p).getLsbD j) := by
  simp only [State.writeMode0, s.lane_rasterOp _ _ p hj, PlanarConfig.fullEnableSetReset, PlanarConfig.fullSetReset,
    PlanarConfig.fullBitMask, lane_or, lane_and, lane_not, lane_fill, lane_expand, select_fillLane]
  cases s.cfg.planar.enableSetReset.getLsbD p.val
  · exact congrArg (ropBit _ · _ _) (ror8_getLsbD val _ hj)
  · exact congrArg (ropBit _ · _ _) (fillLane_getLsbD _ hj)

theorem State.lane_writeMode2 : (lane (s.writeMode2 val) p).getLsbD j = ropBit s.cfg.planar.rasterOp
    (val.getLsbD p.val) (s.cfg.planar.bitMask.getLsbD j) ((lane s.latch p).getLsbD j) := by
  have hp : (val.setWidth 4).getLsbD p.val = val.getLsbD p.val := by
    rw [BitVec.getLsbD_setWidth, decide_eq_true p.isLt, Bool.true_and]
  rw [State.writeMode2, s.lane_rasterOp _ _ p hj, PlanarConfig.fullBitMask, lane_fill, lane_expand,
    fillLane_getLsbD _ hj, hp]

theorem State.lane_writeMode3 : (lane (s.writeMode3 val) p).getLsbD j = ropBit s.cfg.planar.rasterOp
    (s.cfg.planar.setReset.getLsbD p.val)
    (val.getLsbD ((j + s.cfg.planar.dataRotate.toNat) % 8) && s.cfg.planar.bitMask.getLsbD j)
    ((lane s.latch p).getLsbD j) := by
  simp only [State.writeMode3, s.lane_rasterOp _ _ p hj, PlanarConfig.fullSetReset, PlanarConfig.fullBitMask, lane_and,
    lane_fill, lane_expand, BitVec.getLsbD_and, fillLane_getLsbD _ hj, ror8_getLsbD _ _ hj]

end

/-- Settles O15: mode 1 is the Latch itself, the others bit by bit as their lemmas say. -/
theorem writeModes : Obligations.WriteModes := by
  unfold Obligations.WriteModes
  intro s val
  exact ⟨_, _, _, _, rfl, rfl, rfl, rfl, fun p j hj => ⟨s.lane_writeMode0 val p hj, rfl, s.lane_writeMode2 val p hj,
    s.lane_writeMode3 val p hj⟩⟩

/-- Settles O16: the row is the diagnostic of R324, which adds its mark or leaves the state, and the word 0. -/
theorem unsupportedWriteMode : Obligations.UnsupportedWriteMode := by
  unfold Obligations.UnsupportedWriteMode
  intro s mode val _
  have hrow : exec (.wmUnsup mode val) s = .next ((s.logOnce .writeMode mode).setOut (.word 0#32)) := rfl
  refine ⟨_, hrow, rfl, ?_, ?_, ?_, exec_keeps hrow⟩ <;> rw [State.setOut_logged]
  all_goals rcases s.logOnce_cases .writeMode mode with ⟨hmem, hlog⟩ | ⟨hnew, hlog⟩ <;> rw [hlog]
  · exact hmem
  · exact List.mem_append_right _ (List.mem_singleton_self _)
  · exact fun _ => rfl
  · exact fun hmem => absurd hmem hnew
  · exact fun hnew => absurd hmem hnew
  · exact fun _ => rfl

end Sys2Proof.Machine
end

section
/-! The identity datapath (R164): the slow chained handlers read and store the byte the fast ones do. -/

namespace Sys2Proof.Machine

/-! ### Planar words in VRAM (R14) -/

/-- A planar word's byte of plane `p` lies at four times its index, plus `p`, in VRAM. -/
theorem State.planarOff_add (s : State) (h : 2 ≤ s.plat.vmemBits) (i : Nat) (p : Plane) :
    s.planarOff i + p.val = s.wrap (4 * i + p.val) := by
  have hlow : 4 * i % 4 + p.val < 4 := by omega
  rw [State.wrap, mod_add_of_low (Platform.four_dvd_vmemSize h) hlow, State.planarOff, State.wrap4,
    ← Nat.mul_mod_mul_left, Platform.vmemSize_eq h]

theorem State.lane_planarRead (s : State) (h : 2 ≤ s.plat.vmemBits) (i : Nat) (p : Plane) :
    lane (s.planarRead i) p = s.vramAt (s.wrap (4 * i + p.val)) := by
  have hlt := s.planarOff_lt h i
  rw [← s.planarOff_add h, ← State.wrap_of_lt (s := s) (o := s.planarOff i + p.val) (by omega)]
  exact s.byteOf_vread _ .dword _ p.isLt

/-- A planar store reads back as the word's lanes at its four offsets, elsewhere as before. -/
theorem State.planarStore_vramAt_add {s : State} (hwf : s.vram.wf = true) (h : 2 ≤ s.plat.vmemBits) (i : Nat) (w : Word)
    (p : Plane) : (s.planarStore i w).vramAt (s.planarOff i + p.val) = lane w p := by
  rw [State.planarStore_vramAt hwf h]
  fin_cases p <;> simp <;> rfl

theorem State.planarStore_vramAt_of_outside {s : State} (hwf : s.vram.wf = true) (h : 2 ≤ s.plat.vmemBits) (i : Nat)
    (w : Word) {x : Nat} (hx : ∀ p : Plane, x ≠ s.planarOff i + p.val) : (s.planarStore i w).vramAt x = s.vramAt x := by
  have h0 : x ≠ s.planarOff i := hx 0
  have h1 : x ≠ s.planarOff i + 1 := hx 1
  have h2 : x ≠ s.planarOff i + 2 := hx 2
  have h3 : x ≠ s.planarOff i + 3 := hx 3
  rw [State.planarStore_vramAt hwf h, if_neg h3, if_neg h2, if_neg h1, if_neg h0]

/-- Storing the planar word that is there with one lane replaced stores that one byte. -/
theorem State.planarStore_eq_putByte {s : State} (hs : s.Inv) (h : 2 ≤ s.plat.vmemBits) {i : Nat} {w : Word} {p : Plane}
    {v : Byte} (hw : ∀ q, lane w q = if q = p then v else lane (s.planarRead i) q) :
    s.planarStore i w = s.putByte (4 * i + p.val) v := by
  have hwf : s.vram.wf = true := hs.vramWf
  refine State.eq_of_vramAt (s := s) (s.keepsBut_setVram _) (s.keepsBut_setVram _) (hs.putWord _ _).vramWf
    (hs.putByte _ _).vramWf fun x => ?_
  rw [State.putByte_vramAt hwf, ← s.planarOff_add h]
  by_cases hx : ∃ q : Plane, x = s.planarOff i + q.val
  · obtain ⟨q, rfl⟩ := hx
    rw [State.planarStore_vramAt_add hwf h, hw, s.lane_planarRead h, s.planarOff_add h]
    simp only [← s.planarOff_add h, Nat.add_left_cancel_iff, Fin.ext_iff]
  · have hout : ∀ q : Plane, x ≠ s.planarOff i + q.val := fun q hq => hx ⟨q, hq⟩
    rw [State.planarStore_vramAt_of_outside hwf h i w hout, if_neg (hout p)]

/-! ### The engine under an identity datapath (R143, R164) -/

/-- The configuration of R164: the engine hands a written byte on as it is, a read takes one plane's byte. -/
structure PlanarConfig.IdentityDatapath (c : PlanarConfig) : Prop where
  bitMask : c.bitMask = 0xFF#8
  writeMode : c.writeMode = 0#8
  dataRotate : c.dataRotate = 0#3
  enableSetReset : c.enableSetReset = 0#4
  rasterOp : c.rasterOp = 0#2
  readMode : c.readMode = false
  oddEven : c.oddEven = false

section
variable {s : State} (hid : s.cfg.planar.IdentityDatapath)
include hid

/-- The engine answers the host byte in every plane and logs nothing (R143). -/
theorem State.modeOperation_identity (v : Byte) (p : Plane) :
    (s.modeOperation v).2 = s ∧ lane (s.modeOperation v).1 p = v := by
  have hmode : s.modeOperation v = (s.writeMode0 v, s) := by
    simp only [State.modeOperation, hid.writeMode]
    rfl
  rw [hmode]
  refine ⟨rfl, BitVec.eq_of_getLsbD_eq fun j hj => ?_⟩
  have hmask : (0xFF#8).getLsbD j = true := fillLane_getLsbD true hj
  rw [s.lane_writeMode0 v p hj, hid.enableSetReset, hid.dataRotate, hid.rasterOp, hid.bitMask, hmask]
  simp [ropBit, Nat.mod_eq_of_lt hj]

/-- A planar read loads the Latch and answers the nominal plane's byte (R153, R155). -/
theorem State.planarReadByte_identity (h : 2 ≤ s.plat.vmemBits) (i : Nat) (raw : Bool) (p : Plane) :
    s.planarReadByte i raw p = (s.vramAt (s.wrap (4 * i + p.val)), s.latchLoad i) := by
  rw [← s.lane_planarRead h]
  simp [State.planarReadByte, State.planarRead0, State.readIndex, State.readPlane, hid.readMode, hid.oddEven]

/-- A planar write confined to one enabled plane stores the host byte there and nothing else (R159). -/
theorem State.planarWriteByte_identity (hs : s.Inv) (h : 2 ≤ s.plat.vmemBits) {p : Plane}
    (hon : s.planeOn p = true) (i : Nat) (v : Byte) :
    s.planarWriteByte i v (laneMask p) = s.putByte (4 * i + p.val) v := by
  have hmask (q : Plane) :
      lane (s.cfg.planar.fullMapMask &&& laneMask p) q = fillLane (decide (q = p)) := by
    have henabled : q = p → s.cfg.planar.mapMask.getLsbD q.val = true := fun hq => hq ▸ hon
    rw [lane_and, PlanarConfig.fullMapMask, lane_fill, lane_laneMask, fillLane_and]
    exact congrArg fillLane (Bool.eq_iff_iff.2 (by simpa using henabled))
  rw [State.planarWriteByte, (s.modeOperation_identity hid v p).1]
  refine State.planarStore_eq_putByte hs h fun q => ?_
  rw [lane_or, lane_and, lane_and, lane_not, hmask, select_fillLane, (s.modeOperation_identity hid v q).2]
  simp only [decide_eq_true_eq]

end

/-! ### The chained pairs (R160, R172) -/

/-- A slow chained handler beside its fast one: the planar index it takes of a flat address is where the fast handler's
place of that address lies. -/
structure ChainedPair (fast slow : Tag) (index : Nat → Nat) : Prop where
  fastLinear : fast.byteLinear = true
  fastBanked : fast ≠ .linear
  slowLatched : slow.latched = true
  place : ∀ a, linearPlace fast a = 4 * index a + (chainPlane a).val
  read : ∀ (addr : Word) (s : State), latchedRead slow addr s =
    s.planarReadByte (index (s.flatRead addr)) (decide (s.flatRead addr % 2 = 1)) (chainPlane (s.flatRead addr))
  write : ∀ (addr : Word) (v : Byte) (s : State), latchedWrite slow addr v s =
    s.planarWriteByte (index (s.flatWrite addr)) v (laneMask (chainPlane (s.flatWrite addr)))

theorem chainedPair_vga : ChainedPair .chainedVga .chainedVgaSlow chain4Index where
  fastLinear := rfl
  fastBanked := by decide
  slowLatched := rfl
  place a := by
    rw [← linearPlace_chain4]
    simp only [chain4Place, chain4Index, chainPlane]
    omega
  read _ _ := rfl
  write _ _ _ := rfl

theorem chainedPair_et4k : ChainedPair .chainedVgaEt4k .chainedVgaEt4kSlow et4kIndex where
  fastLinear := rfl
  fastBanked := by decide
  slowLatched := rfl
  place a := (Nat.div_add_mod a 4).symm
  read _ _ := rfl
  write _ _ _ := rfl

section
variable {fast slow : Tag} {index : Nat → Nat} (hpair : ChainedPair fast slow index) {s : State}
  (hid : s.cfg.planar.IdentityDatapath) (hbits : 2 ≤ s.plat.vmemBits)
include hpair hid hbits

/-- Under an identity datapath the slow read is the fast one, the Latch load aside (R164, R166, R170). -/
theorem ChainedPair.read_identity (addr : Word) : ∃ t L, exec (Instr.busRd .byte addr fast) s = .next t ∧
    exec (Instr.busRd .byte addr slow) s = .next (t.setLatch L) := by
  refine ⟨_, s.planarRead (index (s.flatRead addr)), exec_busRd_byteLinear_byte hpair.fastLinear addr s, ?_⟩
  rw [(latched_readsBy hpair.slowLatched).exec_byte, hpair.read, State.planarReadByte_identity hid hbits,
    ← hpair.place, ← s.linearAt_flatRead hpair.fastBanked]
  rfl

/-- Under an identity datapath the slow write to an enabled plane is the fast one (R164, R167, R171). -/
theorem ChainedPair.write_identity (hs : s.Inv) (addr data : Word)
    (hon : s.planeOn (chainPlane (s.flatWrite addr)) = true) :
    ∃ t, exec (Instr.busWr .byte addr data fast) s = .next t ∧ exec (Instr.busWr .byte addr data slow) s = .next t := by
  refine ⟨_, (byteLinear_writesBy hpair.fastLinear).exec_byte s addr data, ?_⟩
  rw [(latched_writesBy hpair.slowLatched).exec_byte, hpair.write,
    State.planarWriteByte_identity hid hs hbits hon, ← hpair.place, linearPut,
    ← s.linearAt_flatWrite hpair.fastBanked]

end

/-- Settles O25: the two pairs differ in their planar index only, and each index fits its fast handler's place. -/
theorem slowIsFastUnderIdentity : Obligations.SlowIsFastUnderIdentity := by
  unfold Obligations.SlowIsFastUnderIdentity
  intro s addr data hs hbits hmask hmode hrotate henable hrop hread hoddEven hon
  have hid : s.cfg.planar.IdentityDatapath := ⟨hmask, hmode, hrotate, henable, hrop, hread, hoddEven⟩
  exact ⟨chainedPair_vga.read_identity hid hbits addr, chainedPair_et4k.read_identity hid hbits addr,
    chainedPair_vga.write_identity hid hbits hs addr data hon, chainedPair_et4k.write_identity hid hbits hs addr data hon⟩

end Sys2Proof.Machine
end

section
/-! Refused accesses (R83, R178): the rows of `UNMAPPED` and of the legacy tags have no other outcome. -/

namespace Sys2Proof.Machine

/-- The handlers the source gives no behaviour: tags 9 to 14 (R178). -/
def legacyTags : List Tag := [.text, .cgaSnowText, .hercules, .tandy, .pcjr, .amstrad]

/-- A legacy handler refuses a read and a write, whatever the state (R178). -/
theorem exec_bus_legacy {h : Tag} (hh : h ∈ legacyTags) (w : Width) (addr data : Word) (s : State) :
    exec (Instr.busRd w addr h) s = .refused .legacyHandler ∧
      exec (Instr.busWr w addr data h) s = .refused .legacyHandler := by
  cases h with
  | text | cgaSnowText | hercules | tandy | pcjr | amstrad => exact ⟨rfl, rfl⟩
  | _ => exact absurd hh (by decide)

/-- Settles O27: `UNMAPPED` has its two rows, a legacy tag is one of six with two rows each. -/
theorem unmappedAndLegacyRefused : Obligations.UnmappedAndLegacyRefused := by
  unfold Obligations.UnmappedAndLegacyRefused
  exact fun s w addr data => ⟨rfl, rfl, fun _ hh => exec_bus_legacy hh w addr data s⟩

end Sys2Proof.Machine
end

section
/-! The chained tags Dispatch binds (R164, R194): which of a fast and a slow tag the bit mask admits. -/

namespace Sys2Proof.Machine

/-- The bit mask a tag asks for: the fast chained tags one of all ones, the slow ones another, the rest any (R164,
R203). -/
def bitMaskFits (mask : Byte) : Tag → Prop
  | .chainedVga | .chainedVgaEt4k => mask = 0xFF#8
  | .chainedVgaSlow | .chainedVgaEt4kSlow => mask ≠ 0xFF#8
  | _ => True

/-- The expanded bit mask is all ones when the bit mask is (R35). -/
theorem PlanarConfig.fullBitMask_eq_ones_iff (c : PlanarConfig) :
    c.fullBitMask = 0xFFFFFFFF#32 ↔ c.bitMask = 0xFF#8 := by
  constructor
  · intro hfull
    have hlane : lane c.fullBitMask 0 = lane 0xFFFFFFFF#32 0 := congrArg (lane · 0) hfull
    rwa [PlanarConfig.fullBitMask, lane_expand] at hlane
  · intro hmask
    rw [PlanarConfig.fullBitMask, hmask]
    rfl

/-- The chained 8-bpp tree takes the slow tag of a vendor under a bit mask that is not all ones, else the fast one
(R194). -/
theorem selectVga8_fits (v : Vendor) (c : ExtConfig) : bitMaskFits c.planar.bitMask (selectVga8 v c) := by
  simp only [selectVga8, ne_eq, c.planar.fullBitMask_eq_ones_iff]
  split
  · trivial
  split
  · trivial
  by_cases hmask : c.planar.bitMask = 0xFF#8
  · cases v <;> simp [hmask, bitMaskFits]
  · cases v <;> simp [hmask, bitMaskFits]

theorem selectByMode_fits (v : Vendor) (c : ExtConfig) : bitMaskFits c.planar.bitMask (selectByMode v c) := by
  unfold selectByMode
  cases c.disp.displayMode with
  | vga8 => exact selectVga8_fits v c
  | ega => cases c.disp.chained <;> trivial
  | _ => trivial

/-- Only the 8-bpp tree of an EGAVGA machine selects a chained tag (R192, R193). -/
theorem selectHandler_fits (p : Platform) (c : ExtConfig) : bitMaskFits c.planar.bitMask (selectHandler p c) := by
  unfold selectHandler
  cases p.machine with
  | egavga => exact selectByMode_fits p.vendor c
  | cga => dsimp only; split <;> trivial
  | _ => trivial

/-- After Dispatch every address has a tag that the bit mask admits: the selected one, `LINEAR` or none. -/
theorem State.dispatch_handlerAt_fits (s : State) (addr : Word) :
    bitMaskFits s.cfg.planar.bitMask (s.dispatch.handlerAt addr) := by
  unfold State.dispatch
  obtain htag | htag | htag := s.dispatchWith_handlerAt (selectHandler s.plat s.cfg) addr <;> rw [htag]
  · exact selectHandler_fits s.plat s.cfg
  · trivial
  · trivial

/-- Settles O60: the tag bound at an address fits the bit mask, read off at each of the four chained tags. -/
theorem fastChainedOnlyUnmasked : Obligations.FastChainedOnlyUnmasked := by
  unfold Obligations.FastChainedOnlyUnmasked
  intro s t addr hexec
  have hbound : (s.dispatch.setOut .none).handlerAt addr = s.dispatch.handlerAt addr := rfl
  have hfits := s.dispatch_handlerAt_fits addr
  rw [← hbound, Host.Outcome.next.inj hexec] at hfits
  constructor
  · rintro (htag | htag)
    all_goals rwa [htag] at hfits
  · rintro (htag | htag)
    all_goals rwa [htag] at hfits

end Sys2Proof.Machine
end

section
/-! Byte accesses of the byte-linear handlers outside the linear framebuffer window (R160 to R162, R168, R169, R174 to
R177). -/

namespace Sys2Proof.Machine

/-- Outside the framebuffer window the wrapped place of a flat address is the address itself, but in the generic chain-4
handler, which spreads it by four (R160, R172). -/
theorem State.wrap_linearPlace_of_outside (s : State) {h : Tag} {addr : Word}
    (hout : h = .linear → s.lfbOf addr = none) (bank : Word) :
    s.wrap (linearPlace h (s.linearAt h bank addr)) =
      let a := ((addr &&& s.binding.pageMask) + bank).toNat % s.plat.vmemSize
      if h = .chainedVga then (4 * (a - a % 4) + a % 4) % s.plat.vmemSize else a := by
  rw [State.linearAt_of_outside hout, linearPlace]
  split
  · rfl
  · exact Nat.mod_mod _ _

/-- Settles O22: the byte access of every byte-linear handler, at the place of a flat address outside the window. -/
theorem byteLinearBytes : Obligations.ByteLinearBytes := by
  unfold Obligations.ByteLinearBytes
  intro s h addr data hs hh hout place r w
  have hr : s.wrap (linearPlace h (s.linearAt h s.binding.bankReadFull addr)) = r :=
    s.wrap_linearPlace_of_outside hout _
  have hw : s.wrap (linearPlace h (s.linearAt h s.binding.bankWriteFull addr)) = w :=
    s.wrap_linearPlace_of_outside hout _
  constructor
  · rw [exec_busRd_byteLinear_byte hh, hr]
    rfl
  · obtain ⟨t, ht, hvram, hcycles, hport, hkeeps⟩ := exec_busWr_byteLinear_byte hh addr data hs
    simp only [hw] at hvram
    exact ⟨t, ht, by simp [hvram], fun x hx => by simp [hvram, hx], hcycles, hport, hkeeps⟩

end Sys2Proof.Machine
end

section
/-! Planar reads (R152 to R156): the Latch load, the correction under odd/even, the colour compare bit by bit, and the
read-mode row a latched handler's byte read is. -/

namespace Sys2Proof.Machine

/-! ### The Latch load and the odd/even correction (R14, R152, R153) -/

/-- A planar word's lanes are the four bytes of VRAM at its wrapped index (R14). -/
theorem State.lane_planarRead_wrapped (s : State) (h : 2 ≤ s.plat.vmemBits) (i : Nat) (p : Plane) :
    lane (s.planarRead i) p = s.vramAt (4 * (i % (s.plat.vmemSize / 4)) + p.val) := by
  rw [s.lane_planarRead h, ← s.planarOff_add h]
  rfl

theorem State.readIndex_eq (s : State) (i : Nat) :
    s.readIndex i = if s.cfg.planar.oddEven then i - i % 2 else i := by
  rw [State.readIndex, ← Nat.div_mul_self_eq_mod_sub_self]

theorem State.readPlane_val (s : State) (raw : Bool) (p : Plane) :
    (s.readPlane raw p).val = if s.cfg.planar.oddEven then p.val - p.val % 2 + raw.toNat else p.val := by
  rw [State.readPlane, ← Nat.div_mul_self_eq_mod_sub_self]
  split <;> rfl

/-- Settles O17: the row is the Latch load and one lane of it, index and plane as odd/even corrects them. -/
theorem planarReadMode0 : Obligations.PlanarReadMode0 := by
  unfold Obligations.PlanarReadMode0
  intro s idx raw plane hbits oe i
  have hi : s.readIndex idx.toNat = i := s.readIndex_eq idx.toNat
  refine ⟨s.planarRead (s.readIndex idx.toNat), s.readPlane raw plane, rfl, fun p => ?_, s.readPlane_val raw plane⟩
  rw [s.lane_planarRead_wrapped hbits, hi]

/-! ### The colour compare (R156) -/

theorem lane_xor (v w : Word) (p : Plane) : lane (v ^^^ w) p = lane v p ^^^ lane w p := BitVec.extractLsb'_xor

/-- A bit of the compared word is 1 where its plane takes part and differs from its compare bit. -/
theorem colourDifference_getLsbD (c : PlanarConfig) (l : Word) (p : Plane) {j : Nat} (hj : j < 8) :
    (lane ((l &&& fill c.colorDontCare) ^^^ fill (c.colorCompare &&& c.colorDontCare)) p).getLsbD j =
      (c.colorDontCare.getLsbD p.val && ((lane l p).getLsbD j != c.colorCompare.getLsbD p.val)) := by
  simp only [lane_xor, lane_and, lane_fill, BitVec.getLsbD_xor, BitVec.getLsbD_and, fillLane_getLsbD _ hj]
  cases c.colorDontCare.getLsbD p.val <;> simp

/-- A NOR over the four planes holds when no plane's bit is set. -/
theorem nor_planes_iff (d : Plane → Bool) : (!(d 0 || d 1 || d 2 || d 3)) = true ↔ ∀ p, d p = false := by
  simp [Fin.forall_fin_succ, and_assoc]

/-- A bit of the result is 1 exactly where no plane that takes part differs (R156). -/
theorem colourCompare_getLsbD_iff (c : PlanarConfig) (l : Word) {j : Nat} (hj : j < 8) :
    (colourCompare c l).getLsbD j = true ↔ ∀ p : Plane, c.colorDontCare.getLsbD p.val = true →
      (lane l p).getLsbD j = c.colorCompare.getLsbD p.val := by
  simp only [colourCompare, BitVec.getLsbD_not, BitVec.getLsbD_or, hj, decide_true, Bool.true_and]
  rw [nor_planes_iff fun p =>
    (lane ((l &&& fill c.colorDontCare) ^^^ fill (c.colorCompare &&& c.colorDontCare)) p).getLsbD j]
  simp only [colourDifference_getLsbD c l _ hj, Bool.and_eq_false_imp, bne_eq_false_iff_eq]

/-- Settles O18: the row is the Latch load and the colour compare of what it loads. -/
theorem planarReadMode1 : Obligations.PlanarReadMode1 := by
  unfold Obligations.PlanarReadMode1
  intro s idx raw plane hbits i
  have hi : s.readIndex idx.toNat = i := s.readIndex_eq idx.toNat
  refine ⟨s.planarRead (s.readIndex idx.toNat), _, rfl, fun p => ?_, fun j hj => colourCompare_getLsbD_iff _ _ hj⟩
  rw [s.lane_planarRead_wrapped hbits, hi]

/-! ### The latched handlers' byte reads (R154, R166, R170) -/

/-- The row that `read_mode` selects is the planar read, its value at the port (R108, R153). -/
theorem exec_rmRow (s : State) (idx : Word) (raw : Bool) (p : Plane) :
    exec (rmRow s.cfg.planar.readMode idx raw p) s =
      .next ((s.planarReadByte idx.toNat raw p).2.setOut (.byte (s.planarReadByte idx.toNat raw p).1)) := by
  unfold rmRow State.planarReadByte
  split <;> rfl

/-- A byte read that is one planar read is, after its debit, the row `read_mode` selects at that index. -/
theorem ReadsBy.exec_byte_eq_rmRow {h : Tag} {f : Word → State → Byte × State} (hf : ReadsBy h f) {s : State}
    {addr : Word} {i : Nat} {raw : Bool} {p : Plane} (hread : f addr s = s.planarReadByte i raw p) (hi : i < 2 ^ 32) :
    ∃ u, exec (rmRow s.cfg.planar.readMode (BitVec.ofNat 32 i) raw p) s.debitRead = .next u ∧
      exec (Instr.busRd .byte addr h) s = .next u := by
  have hrow := exec_rmRow s.debitRead (BitVec.ofNat 32 i) raw p
  rw [BitVec.toNat_ofNat, Nat.mod_eq_of_lt hi, State.debitRead_eq_withPort, State.planarReadByte_withPort] at hrow
  refine ⟨_, hrow, ?_⟩
  rw [hf.exec_byte, hread]
  rfl

theorem chain4Index_eq (a : Nat) : chain4Index a = a - a % 4 := Nat.div_mul_self_eq_mod_sub_self

/-- Settles O19: each handler's byte read is one planar read, at an index below 2^32. -/
theorem latchedByteReads : Obligations.LatchedByteReads := by
  unfold Obligations.LatchedByteReads
  intro s addr m t i a
  have hi : i < 2 ^ 32 := (Nat.mod_le _ _).trans_lt t.isLt
  have ha : a < 2 ^ 32 := (Nat.mod_le _ _).trans_lt t.isLt
  refine ⟨(latched_readsBy (h := .unchained) rfl).exec_byte_eq_rmRow rfl hi,
    (latched_readsBy (h := .chainedVgaSlow) rfl).exec_byte_eq_rmRow ?_ (by omega),
    (latched_readsBy (h := .chainedVgaEt4kSlow) rfl).exec_byte_eq_rmRow rfl (by omega)⟩
  rw [chainedPair_vga.read, chain4Index_eq]
  rfl

end Sys2Proof.Machine
end

section
/-! Planar writes (R157, R159, R167, R171): what a planar write stores, and the index and lanes of each latched handler. -/

namespace Sys2Proof.Machine

/-! ### One planar write (R159) -/

/-- The row that `write_mode` selects is the engine's operation, its word at the port (R106, R140). -/
theorem exec_wmRow (s : State) (v : Byte) :
    exec (wmRow s.cfg.planar.writeMode v) s =
      .next ((s.modeOperation v).2.setOut (.word (s.modeOperation v).1)) := by
  unfold wmRow State.modeOperation
  rcases s.cfg.planar.writeMode.toNat with _ | _ | _ | _ | n
  all_goals rfl

/-- The planar word a planar write leaves: the engine's lanes in the enabled planes of the write, what stands in VRAM in
the others. -/
def State.mergedWord (s : State) (i : Nat) (v : Byte) (lanes : Word) : Word :=
  (s.planarRead i &&& ~~~(s.cfg.planar.fullMapMask &&& lanes)) |||
    ((s.modeOperation v).1 &&& (s.cfg.planar.fullMapMask &&& lanes))

theorem State.planarWriteByte_vram (s : State) (i : Nat) (v : Byte) (lanes : Word) :
    (s.planarWriteByte i v lanes).vram = (s.planarStore i (s.mergedWord i v lanes)).vram := by
  rw [State.planarWriteByte, State.modeOperation_setLogged]
  rfl

section
variable {s : State} (hwf : s.vram.wf = true) (hbits : 2 ≤ s.plat.vmemBits) (i : Nat) (v : Byte)
include hwf hbits

/-- A planar write puts the engine's lane in each plane that the map mask enables and the write selects (R159). -/
theorem State.planarWriteByte_vramAt {lanes : Word} {selected : Plane → Bool}
    (hlanes : ∀ p, lane lanes p = fillLane (selected p)) (p : Plane) :
    (s.planarWriteByte i v lanes).vramAt (s.planarOff i + p.val) =
      if s.planeOn p && selected p then lane (s.modeOperation v).1 p else s.vramAt (s.planarOff i + p.val) := by
  have hstored : lane (s.mergedWord i v lanes) p =
      if s.planeOn p && selected p then lane (s.modeOperation v).1 p else lane (s.planarRead i) p := by
    rw [State.mergedWord, lane_or, lane_and, lane_and, lane_not, lane_and, PlanarConfig.fullMapMask, lane_fill, hlanes,
      fillLane_and, select_fillLane]
    rfl
  rw [State.vramAt, State.planarWriteByte_vram, ← State.vramAt, State.planarStore_vramAt_add hwf hbits, hstored,
    s.lane_planarRead hbits, s.planarOff_add hbits]

/-- A planar write leaves every byte outside its planar word (R159). -/
theorem State.planarWriteByte_vramAt_of_outside (lanes : Word) {x : Nat}
    (hx : ∀ p : Plane, x ≠ s.planarOff i + p.val) : (s.planarWriteByte i v lanes).vramAt x = s.vramAt x := by
  rw [State.vramAt, State.planarWriteByte_vram, ← State.vramAt,
    State.planarStore_vramAt_of_outside hwf hbits i _ hx]

end

/-! ### The latched handlers' byte writes (R157, R167, R171) -/

theorem State.withPort_vramAt (s : State) (c : Int) (o : Out) (x : Nat) : (s.withPort c o).vramAt x = s.vramAt x := rfl

/-- The planar index a latched handler makes of a translated address (R157, R160, R172). -/
def State.latchedIndex (s : State) (h : Tag) (t : Nat) : Nat :=
  if h = .unchained then s.wrap4 t else if h = .chainedVgaSlow then chain4Index (s.wrap t) else et4kIndex (s.wrap t)

/-- The lanes a latched handler writes: all of them, or under chain-4 the addressed plane's (R157, R167, R171). -/
def State.latchedLanes (s : State) (h : Tag) (t : Nat) : Word :=
  if h = .unchained then 0xFFFFFFFF#32 else laneMask (chainPlane (s.wrap t))

/-- A latched handler's byte write is one planar write at its index and lanes. -/
theorem latchedWrite_eq {h : Tag} (hh : h.latched = true) (addr : Word) (v : Byte) (s : State) :
    latchedWrite h addr v s = s.planarWriteByte (s.latchedIndex h (s.busWrite addr).toNat) v
      (s.latchedLanes h (s.busWrite addr).toNat) := by
  obtain rfl | rfl | rfl := latched_cases hh
  all_goals rfl

theorem State.planarOff_latchedIndex (s : State) (h : Tag) (t : Nat) :
    s.planarOff (s.latchedIndex h t) = 4 *
      let a := t % s.plat.vmemSize
      if h = .unchained then t % (s.plat.vmemSize / 4)
      else (if h = .chainedVgaSlow then a - a % 4 else a / 4) % (s.plat.vmemSize / 4) := by
  simp only [State.planarOff, State.latchedIndex, State.wrap4, chain4Index_eq, et4kIndex, State.wrap]
  split
  · rw [Nat.mod_mod]
  · rfl

theorem State.lane_latchedLanes (s : State) (h : Tag) (t : Nat) (p : Plane) :
    lane (s.latchedLanes h t) p = fillLane (h == .unchained || p == chainPlane (s.wrap t)) := by
  have hones : ∀ q : Plane, lane 0xFFFFFFFF#32 q = fillLane true := by decide
  by_cases hh : h = .unchained
  · simp [State.latchedLanes, hh, hones]
  · simp [State.latchedLanes, hh, beq_eq_decide]

/-- Settles O20: the handler's write is one planar write, whose word and diagnostic are those of the write-mode row. -/
theorem latchedByteWrites : Obligations.LatchedByteWrites := by
  unfold Obligations.LatchedByteWrites
  intro s h addr data hs hbits hh t a i hit
  have hoff : s.planarOff (s.latchedIndex h t) = 4 * i := s.planarOff_latchedIndex h t
  have hwrite := (latched_writesBy hh).exec_byte s addr data
  have ht : (s.busWrite addr).toNat = t := rfl
  rw [latchedWrite_eq hh, ht] at hwrite
  refine ⟨_, _, _, exec_wmRow s _, rfl, hwrite, fun p => ?_, fun x hx => ?_, rfl, rfl, rfl, ?_⟩
  · rw [State.withPort_vramAt, ← hoff, State.planarWriteByte_vramAt hs.vramWf hbits _ _ (s.lane_latchedLanes h t)]
    rfl
  · rw [← hoff] at hx
    rw [State.withPort_vramAt, State.planarWriteByte_vramAt_of_outside hs.vramWf hbits _ _ _ hx]
  · exact ((s.planarWriteByte_keeps _ _ _).mono (by decide)).trans
      (((State.keepsBut_setCyclesLeft _ _).mono (by decide)).trans ((State.keepsBut_setOut _ _).mono (by decide)))

end Sys2Proof.Machine
end

section
/-! Dispatch as its rows run it (R190): how each kind of tag is bound, which registers of the Binding that touches, and
that a second Dispatch finds everything in place. -/

namespace Sys2Proof.Machine

/-! ### The rows -/

/-- A `DISP` row is Dispatch with its tag the selection (log entry 23). -/
theorem exec_disp (h : Tag) (s : State) : exec (Instr.disp h) s = .next ((s.dispatchWith h).setOut .none) := by
  cases h <;> rfl

theorem exec_dispatch (s : State) :
    exec .dispatch s = .next ((s.dispatchWith (selectHandler s.plat s.cfg)).setOut .none) := rfl

theorem State.dispatchWith_setOut_keeps (s : State) (h : Tag) (o : Out) :
    s.keepsBut [.binding, .out] ((s.dispatchWith h).setOut o) :=
  ((s.dispatchWith_keeps h).mono (by decide)).trans ((State.keepsBut_setOut _ o).mono (by decide))

/-! ### The three kinds of tags (R192, R197, R200) -/

/-- The tags a platform binds by the legacy window: the windowed ones, and `TEXT` on an EGAVGA machine (log
entry 16). -/
def Platform.bindsByWindow (p : Platform) (h : Tag) : Prop := h.windowed = true ∨ (h = .text ∧ p.machine = .egavga)

theorem State.bindTag_of_window {s : State} {h : Tag} (hw : s.plat.bindsByWindow h) :
    s.bindTag h = s.bindWindow h s.cfg.disp.windowSelect.toFin := by
  obtain hw | ⟨rfl, hm⟩ := hw
  · cases h with
    | pc98 | text | cgaSnowText | hercules | tandy | pcjr | amstrad => cases hw
    | _ => rfl
  · simp only [State.bindTag, hm, if_true]

theorem State.bindTag_of_legacy {s : State} {h : Tag} (hw : ¬ s.plat.bindsByWindow h) (hp : h ≠ .pc98) :
    s.bindTag h = s.bindLegacy h := by
  cases h with
  | pc98 => exact absurd rfl hp
  | text =>
    have hm : s.plat.machine ≠ .egavga := fun hm => hw (.inr ⟨rfl, hm⟩)
    simp only [State.bindTag, hm, if_false]
  | cgaSnowText | hercules | tandy | pcjr | amstrad => rfl
  | _ => exact absurd (.inl rfl) hw

/-- A tag is bound by the window, by `BindPC98` or by `BindLegacy`. -/
theorem Platform.bindsByWindow_cases (p : Platform) (h : Tag) :
    p.bindsByWindow h ∨ h = .pc98 ∨ (¬ p.bindsByWindow h ∧ h ≠ .pc98) := by
  by_cases hw : p.bindsByWindow h
  · exact .inl hw
  · by_cases hp : h = .pc98
    · exact .inr (.inl hp)
    · exact .inr (.inr ⟨hw, hp⟩)

/-! ### The registers of the Binding -/

/-- `BindLFB` changes the pages only (R201). -/
theorem State.bindLfb_binding (s : State) : ∃ l, s.bindLfb.binding = { s.binding with bound := l } := by
  unfold State.bindLfb
  split
  · exact ⟨_, rfl⟩
  · exact ⟨_, rfl⟩

/-- No binding touches the bank offsets. -/
theorem State.bindTag_banks (s : State) (h : Tag) :
    (s.bindTag h).binding.bankReadFull = s.binding.bankReadFull ∧
      (s.bindTag h).binding.bankWriteFull = s.binding.bankWriteFull := by
  obtain hw | rfl | ⟨hw, hp⟩ := Platform.bindsByWindow_cases s.plat h
  · rw [State.bindTag_of_window hw]; exact ⟨rfl, rfl⟩
  · exact ⟨rfl, rfl⟩
  · rw [State.bindTag_of_legacy hw hp]; exact ⟨rfl, rfl⟩

/-- The bank latch (R199): the product of the bank and the bank size, modulo 2^32. -/
theorem State.dispatchWith_banks (s : State) (h : Tag) :
    (s.dispatchWith h).binding.bankReadFull.toNat = s.cfg.disp.bankRead * s.cfg.disp.bankSize % 2 ^ 32 ∧
      (s.dispatchWith h).binding.bankWriteFull.toNat = s.cfg.disp.bankWrite * s.cfg.disp.bankSize % 2 ^ 32 := by
  obtain ⟨l, hl⟩ := (s.latchBanks.bindTag h).bindLfb_binding
  obtain ⟨hr, hw⟩ := s.latchBanks.bindTag_banks h
  rw [State.dispatchWith, hl]
  exact ⟨by rw [hr]; exact BitVec.toNat_ofNat _ _, by rw [hw]; exact BitVec.toNat_ofNat _ _⟩

/-- Dispatch leaves the window base and mask that the binding of the tag leaves. -/
theorem State.dispatchWith_window (s : State) (h : Tag) :
    (s.dispatchWith h).binding.pageBase = (s.latchBanks.bindTag h).binding.pageBase ∧
      (s.dispatchWith h).binding.pageMask = (s.latchBanks.bindTag h).binding.pageMask := by
  obtain ⟨l, hl⟩ := (s.latchBanks.bindTag h).bindLfb_binding
  rw [State.dispatchWith, hl]
  exact ⟨rfl, rfl⟩

/-! ### A second Dispatch (R190) -/

theorem State.bindLfb_latchBanks (s : State) : s.bindLfb.latchBanks = s.latchBanks := by
  unfold State.bindLfb
  split <;> rfl

/-- The latch drops the pages, and a tag that is bound again sets the same window, or keeps it. -/
theorem State.bindTag_latchBanks_bindTag (s : State) (h : Tag) :
    (s.latchBanks.bindTag h).latchBanks.bindTag h = s.latchBanks.bindTag h := by
  obtain hw | rfl | ⟨hw, hp⟩ := Platform.bindsByWindow_cases s.plat h
  · rw [State.bindTag_of_window (s := s.latchBanks) hw]
    exact State.bindTag_of_window hw
  · rfl
  · rw [State.bindTag_of_legacy (s := s.latchBanks) hw hp]
    exact State.bindTag_of_legacy hw hp

theorem State.dispatchWith_dispatchWith (s : State) (h : Tag) :
    (s.dispatchWith h).dispatchWith h = s.dispatchWith h := by
  simp only [State.dispatchWith, State.bindLfb_latchBanks, State.bindTag_latchBanks_bindTag]

/-- Dispatch does not read the output port. -/
theorem State.dispatchWith_setOut (s : State) (h : Tag) (o : Out) :
    (s.setOut o).dispatchWith h = (s.dispatchWith h).setOut o := by
  have hTag : (s.setOut o).latchBanks.bindTag h = (s.latchBanks.bindTag h).setOut o := by
    obtain hw | rfl | ⟨hw, hp⟩ := Platform.bindsByWindow_cases s.plat h
    · rw [State.bindTag_of_window (s := s.latchBanks) hw]
      exact State.bindTag_of_window hw
    · rfl
    · rw [State.bindTag_of_legacy (s := s.latchBanks) hw hp]
      exact State.bindTag_of_legacy hw hp
  rw [State.dispatchWith, hTag, State.dispatchWith]
  simp only [State.bindLfb, State.setOut_plat]
  split <;> rfl

/-- Settles O59: Dispatch changes neither parameters nor configuration, so the second one selects the same tag, and
binding it again changes nothing. -/
theorem dispatchIdempotent : Obligations.DispatchIdempotent := by
  unfold Obligations.DispatchIdempotent
  intro s
  refine ⟨_, exec_dispatch s, ?_⟩
  have hkeeps := s.dispatchWith_setOut_keeps (selectHandler s.plat s.cfg) .none
  have hplat := hkeeps .plat (by decide)
  have hcfg := hkeeps .cfg (by decide)
  simp only [State.same] at hplat hcfg
  rw [exec_dispatch, hplat, hcfg, State.dispatchWith_setOut, State.dispatchWith_dispatchWith]
  rfl

end Sys2Proof.Machine
end

section
/-! The selection of the handler (R192 to R198), branch by branch, and that DISPATCH runs the row of the selected
tag. -/

namespace Sys2Proof.Machine

/-! ### The chained 8-bpp tree (R194) -/

section
variable {c : ExtConfig}

theorem selectVga8_of_unchained (v : Vendor) (hc : c.disp.chained = false) : selectVga8 v c = .unchained := by
  simp [selectVga8, hc]

theorem selectVga8_of_not_compatible (v : Vendor) (hc : c.disp.chained = true) (h4 : c.disp.compatibleChain4 = false) :
    selectVga8 v c = .linear := by
  simp [selectVga8, hc, h4]

/-- Chained and compatible: the vendor's slow tag under a bit mask that is not all ones, else its fast one. -/
theorem selectVga8_of_chained (v : Vendor) (hc : c.disp.chained = true) (h4 : c.disp.compatibleChain4 = true) :
    selectVga8 v c =
      match v with
      | .et4000 => if c.planar.bitMask = 0xFF#8 then .chainedVgaEt4k else .chainedVgaEt4kSlow
      | .other => if c.planar.bitMask = 0xFF#8 then .chainedVga else .chainedVgaSlow := by
  by_cases hmask : c.planar.bitMask = 0xFF#8
  · cases v <;> simp [selectVga8, hc, h4, c.planar.fullBitMask_eq_ones_iff, hmask]
  · cases v <;> simp [selectVga8, hc, h4, c.planar.fullBitMask_eq_ones_iff, hmask]

/-! ### The display modes (R193 to R198) -/

theorem selectByMode_of_lin (v : Vendor) (hd : c.disp.displayMode ∈ [DisplayMode.lin15, .lin16, .lin24, .lin32]) :
    selectByMode v c = .linear := by
  simp only [List.mem_cons, List.not_mem_nil, or_false] at hd
  obtain hd | hd | hd | hd := hd <;> simp only [selectByMode, hd]

theorem selectByMode_of_text (v : Vendor) (hd : c.disp.displayMode ∈ [DisplayMode.text, .cga2, .cga4]) :
    selectByMode v c = .text := by
  simp only [List.mem_cons, List.not_mem_nil, or_false] at hd
  obtain hd | hd | hd := hd <;> simp only [selectByMode, hd]

theorem selectByMode_of_vga8 (v : Vendor) (hd : c.disp.displayMode = .vga8) : selectByMode v c = selectVga8 v c := by
  simp only [selectByMode, hd]

theorem selectByMode_of_ega (v : Vendor) (hd : c.disp.displayMode = .ega) :
    selectByMode v c = if c.disp.chained then .chainedEga else .unchained := by
  simp only [selectByMode, hd]

end

theorem selectHandler_of_cga {p : Platform} (c : ExtConfig) (hm : p.machine = .cga) :
    selectHandler p c = if p.cgaSnow = true ∧ c.disp.displayMode = .text then .cgaSnowText else .text := by
  simp [selectHandler, hm]

theorem selectHandler_of_egavga {p : Platform} (c : ExtConfig) (hm : p.machine = .egavga) :
    selectHandler p c = selectByMode p.vendor c := by
  simp only [selectHandler, hm]

/-- DISPATCH answers what the row of the selected tag answers. -/
theorem exec_dispatch_of_selected {s : State} {h : Tag} (hsel : selectHandler s.plat s.cfg = h) :
    ∃ t, exec (Instr.disp h) s = .next t ∧ exec .dispatch s = .next t :=
  ⟨_, exec_disp h s, by rw [exec_dispatch, hsel]⟩

/-- Settles O55: the selection at each leaf of the tree. -/
theorem dispatchSelects : Obligations.DispatchSelects := by
  unfold Obligations.DispatchSelects
  intro s d p is slow
  have sel {h : Tag} (hsel : selectHandler p s.cfg = h) : is h := exec_dispatch_of_selected hsel
  refine ⟨fun hm => sel ?_, fun hm => sel ?_, fun hm => sel ?_, fun hm => sel ?_, fun hm => ?_, fun hm => sel ?_,
    fun hm => ?_⟩
  case refine_5 =>
    have hcga := selectHandler_of_cga s.cfg hm
    exact ⟨fun hsnow => sel (hcga.trans (if_pos hsnow)), fun hsnow => sel (hcga.trans (if_neg hsnow))⟩
  case refine_7 =>
    have mode {h : Tag} (hsel : selectByMode p.vendor s.cfg = h) : is h :=
      sel ((selectHandler_of_egavga s.cfg hm).trans hsel)
    refine ⟨fun hd => mode (selectByMode_of_lin _ hd), fun hd => ?_, fun hd => ?_,
      fun hd => mode (selectByMode_of_text _ hd), fun hd => mode ?_, fun hd => mode ?_⟩
    · have tree {h : Tag} (hsel : selectVga8 p.vendor s.cfg = h) : is h :=
        mode ((selectByMode_of_vga8 _ hd).trans hsel)
      refine ⟨fun hc => tree (selectVga8_of_unchained _ hc), fun hc h4 => tree (selectVga8_of_not_compatible _ hc h4),
        fun hc h4 => ?_⟩
      have hchained := selectVga8_of_chained p.vendor hc h4
      refine ⟨fun hv => ?_, fun hv => ?_⟩
      all_goals
        rw [hv] at hchained tree
        exact ⟨fun hslow => tree (hchained.trans (if_neg hslow)),
          fun hfast => tree (hchained.trans (if_pos (not_not.1 hfast)))⟩
    · have hega := selectByMode_of_ega p.vendor hd
      exact ⟨fun hc => mode (hega.trans (if_pos hc)), fun hc => mode (hega.trans (by rw [hc]; rfl))⟩
    · simp only [selectByMode, show s.cfg.disp.displayMode = .pc98 from hd]
    · simp only [selectByMode, show s.cfg.disp.displayMode = .other from hd]
  all_goals simp only [selectHandler, hm]

end Sys2Proof.Machine
end

section
/-! The pages each binding leaves (R192, R197, R200, R201): the legacy windows over what was bound before, the PC-98 and the
legacy pages over nothing, and the Binding as Dispatch leaves it. -/

namespace Sys2Proof.Machine

/-! ### Legacy windows (R200) -/

theorem mem_windows (j : Fin 4) : j ∈ windows := by
  revert j
  decide

/-- The page lies in one of the four legacy windows. -/
def Platform.inSomeWindow (p : Platform) (page : Nat) : Prop := ∃ j, (p.window j .unmapped).holds page = true

/-- A range that `BindWindow` replaces holds pages of the legacy windows only. -/
theorem Platform.inSomeWindow_of_inWindow {p : Platform} {r : PageRange} {page : Nat} (hr : p.inWindow r = true)
    (hpage : r.holds page = true) : p.inSomeWindow page := by
  simp only [Platform.inWindow, List.any_eq_true, Bool.and_eq_true, decide_eq_true_eq] at hr
  obtain ⟨j, -, hfirst, hlast⟩ := hr
  rw [PageRange.holds_iff] at hpage
  refine ⟨j, (PageRange.holds_iff _ _).2 ⟨hfirst.trans hpage.1, ?_⟩⟩
  exact hpage.2.trans_le hlast

section
variable (s : State) (h : Tag) (k : Fin 4) {addr : Word}

/-- `BindWindow` binds the pages of the selected window. -/
theorem State.bindWindow_handlerAt_of_selected (hsel : (s.plat.window k h).holds (pageOf addr) = true) :
    (s.bindWindow h k).handlerAt addr = h := by
  rw [State.handlerAt, Binding.handler_cons _ (s.plat.window k h) _ rfl, if_pos hsel]
  rfl

/-- `BindWindow` unmaps the pages of the other windows. -/
theorem State.bindWindow_handlerAt_of_other (hsel : (s.plat.window k h).holds (pageOf addr) = false)
    (hin : s.plat.inSomeWindow (pageOf addr)) : (s.bindWindow h k).handlerAt addr = .unmapped := by
  rw [State.handlerAt, Binding.handler_cons _ (s.plat.window k h) _ rfl, if_neg (by simp [hsel])]
  simp only [Binding.handler, List.find?_append]
  obtain ⟨j, hj⟩ := hin
  have hjk : j ≠ k := by
    rintro rfl
    exact absurd (hj.symm.trans hsel) (by decide)
  have hmem : s.plat.window j .unmapped ∈ (windows.filter fun j => j ≠ k).map fun j => s.plat.window j .unmapped := by
    exact List.mem_map.2 ⟨j, List.mem_filter.2 ⟨mem_windows j, by simpa using hjk⟩, rfl⟩
  cases hfind : ((windows.filter fun j => j ≠ k).map fun j => s.plat.window j .unmapped).find?
      (fun r => r.holds (pageOf addr)) with
  | none => exact absurd hj (by simpa using List.find?_eq_none.1 hfind _ hmem)
  | some r =>
    obtain ⟨i, -, rfl⟩ := List.mem_map.1 (List.mem_of_find?_eq_some hfind)
    rfl

/-- `BindWindow` leaves the pages outside the legacy windows as they were. -/
theorem State.bindWindow_handlerAt_of_outside (hout : ¬ s.plat.inSomeWindow (pageOf addr)) :
    (s.bindWindow h k).handlerAt addr = s.handlerAt addr := by
  have hno (j : Fin 4) : (s.plat.window j .unmapped).holds (pageOf addr) = false :=
    Bool.eq_false_iff.2 fun hj => hout ⟨j, hj⟩
  have hsel : (s.plat.window k h).holds (pageOf addr) = false := hno k
  rw [State.handlerAt, Binding.handler_cons _ (s.plat.window k h) _ rfl, if_neg (by simp [hsel])]
  have hothers : ((windows.filter fun j => j ≠ k).map fun j => s.plat.window j .unmapped).find?
      (fun r => r.holds (pageOf addr)) = none := by
    simp only [List.find?_eq_none, List.mem_map]
    rintro _ ⟨j, -, rfl⟩
    simp [hno j]
  have hold : (fun r : PageRange => decide ((!s.plat.inWindow r) = true ∧ r.holds (pageOf addr) = true)) =
      fun r => r.holds (pageOf addr) := by
    funext r
    cases hr : r.holds (pageOf addr)
    · simp
    · have : s.plat.inWindow r = false := Bool.eq_false_iff.2 fun hin => hout (Platform.inSomeWindow_of_inWindow hin hr)
      simp [this]
  simp only [Binding.handler, State.handlerAt, List.find?_append, hothers, List.find?_filter, hold, Option.none_or]

end

/-! ### The default bases (R80, R200) -/

/-- The base addresses R8 gives the four windows. -/
def defaultWinBase : Vector Word 4 := #v[0xA0000#32, 0xA0000#32, 0xB0000#32, 0xB8000#32]

/-- At the default bases the legacy windows are the pages 0xA0 to 0xBF. -/
theorem Platform.inSomeWindow_default {p : Platform} (hp : p.winBase = defaultWinBase) (page : Nat) :
    p.inSomeWindow page ↔ 0xA0 ≤ page ∧ page ≤ 0xBF := by
  have hbase (k : Fin 4) : pageOf p.winBase[k] = [0xA0, 0xA0, 0xB0, 0xB8].getD k.val 0 := by
    rw [hp]
    revert k
    decide
  simp only [Platform.inSomeWindow, PageRange.holds_iff, Platform.window, hbase, Fin.exists_fin_succ]
  simp [winPages]
  omega

/-- At the default bases, a window that runs from page `first` to page `last`: its pages are bound, the other pages of 0xA0
to 0xBF unmapped, the rest as they were. -/
theorem State.bindWindow_handlerAt_default {s : State} (hp : s.plat.winBase = defaultWinBase) (h : Tag) (k : Fin 4)
    {first last : Nat} (hk : ∀ page, (s.plat.window k h).holds page = true ↔ first ≤ page ∧ page ≤ last) (addr : Word) :
    let page := addr.toNat / 4096
    (first ≤ page ∧ page ≤ last → (s.bindWindow h k).handlerAt addr = h) ∧
    (0xA0 ≤ page ∧ page ≤ 0xBF ∧ ¬ (first ≤ page ∧ page ≤ last) → (s.bindWindow h k).handlerAt addr = .unmapped) ∧
    (page < 0xA0 ∨ 0xBF < page → (s.bindWindow h k).handlerAt addr = s.handlerAt addr) := by
  intro page
  have hin := Platform.inSomeWindow_default hp page
  refine ⟨fun hsel => ?_, fun ⟨hlo, hhi, hsel⟩ => ?_, fun hout => ?_⟩
  · exact s.bindWindow_handlerAt_of_selected h k ((hk page).2 hsel)
  · exact s.bindWindow_handlerAt_of_other h k (Bool.eq_false_iff.2 (mt (hk page).1 hsel)) (hin.2 ⟨hlo, hhi⟩)
  · exact s.bindWindow_handlerAt_of_outside h k (mt hin.1 (by omega))

theorem State.bindWindow_setOut_keeps (s : State) (h : Tag) (k : Fin 4) (o : Out) :
    s.keepsBut [.binding, .out] ((s.bindWindow h k).setOut o) :=
  ((s.bindWindow_keeps h k).mono (by decide)).trans ((State.keepsBut_setOut _ o).mono (by decide))

/-- Settles O58: the four rows are `BindWindow` with the four values of the select; at the default bases each window's first
and last page are read off its range. -/
theorem bindWindow : Obligations.BindWindow := by
  unfold Obligations.BindWindow
  intro s h
  have completes (k : Fin 4) : ∃ t, .next ((s.bindWindow h k).setOut .none) = (.next t : Result) ∧
      t.binding.pageBase = s.plat.winBase[k] ∧ t.out = .none ∧ s.keepsBut [.binding, .out] t :=
    ⟨_, rfl, rfl, rfl, s.bindWindow_setOut_keeps h k .none⟩
  constructor
  · simp only [List.forall_mem_cons]
    exact ⟨completes 0, completes 1, completes 2, completes 3, by simp⟩
  · intro hp
    have pages {first last : Nat} (k : Fin 4)
        (hk : pageOf defaultWinBase[k] = first ∧ first + winPages k = last + 1) (addr : Word) :=
      State.bindWindow_handlerAt_default hp h k (first := first) (last := last) (fun page => by
        obtain ⟨hfirst, hlast⟩ := hk
        rw [PageRange.holds_iff, Platform.window, hp, ← defaultWinBase, hfirst]
        dsimp only
        omega) addr
    simp only [List.forall_mem_cons]
    refine ⟨⟨_, rfl, ?_, rfl, rfl, rfl, pages 0 (by decide)⟩, ⟨_, rfl, ?_, rfl, rfl, rfl, pages 1 (by decide)⟩,
      ⟨_, rfl, ?_, rfl, rfl, rfl, pages 2 (by decide)⟩, ⟨_, rfl, ?_, rfl, rfl, rfl, pages 3 (by decide)⟩, by simp⟩
    all_goals
      simp only [State.setOut_binding, State.bindWindow, State.setBinding_binding, hp]
      rfl

/-! ### Dispatch (R190) -/

/-- The latch unmaps every page. -/
theorem State.latchBanks_handlerAt (s : State) (addr : Word) : s.latchBanks.handlerAt addr = .unmapped := rfl

/-- Dispatch with a tag bound by the window: outside the framebuffer window, the selected window's pages have the tag and
no other page is bound (R190, R200). -/
theorem State.dispatchWith_handlerAt_of_window {s : State} {h : Tag} (hw : s.plat.bindsByWindow h) (addr : Word) :
    (s.dispatchWith h).handlerAt addr =
      if (s.lfbOf addr).isSome then .linear
      else if (s.plat.window s.cfg.disp.windowSelect.toFin h).holds (pageOf addr) = true then h
      else .unmapped := by
  rw [State.dispatchWith_handlerAt_eq, State.bindTag_of_window (s := s.latchBanks) hw]
  congr 1
  split
  case isTrue hsel => exact s.latchBanks.bindWindow_handlerAt_of_selected h _ hsel
  case isFalse hsel =>
    by_cases hin : s.plat.inSomeWindow (pageOf addr)
    · exact s.latchBanks.bindWindow_handlerAt_of_other h _ (Bool.eq_false_iff.2 hsel) hin
    · rw [State.bindWindow_handlerAt_of_outside s.latchBanks h _ hin, State.latchBanks_handlerAt]

theorem winMask_eq (k : Fin 4) : winMask k = [0x1FFFF#32, 0xFFFF#32, 0x7FFF#32, 0x7FFF#32].getD k.val 0 := by
  revert k
  decide

theorem winPages_eq (k : Fin 4) : winPages k = [32, 16, 8, 8].getD k.val 0 := by
  revert k
  decide

/-- Settles O56: the bank latch, the registers of the selected window, and the lookup page by page. -/
theorem dispatchBindsWindow : Obligations.DispatchBindsWindow := by
  unfold Obligations.DispatchBindsWindow
  intro s h hw k first
  obtain ⟨hread, hwrite⟩ := s.dispatchWith_banks h
  obtain ⟨hbase, hmask⟩ := s.dispatchWith_window h
  rw [State.bindTag_of_window (s := s.latchBanks) hw] at hbase hmask
  refine ⟨_, exec_disp h s, rfl, s.dispatchWith_setOut_keeps h .none, hread, hwrite, hbase,
    hmask.trans (winMask_eq k), fun addr => ?_⟩
  refine (State.dispatchWith_handlerAt_of_window hw addr).trans ?_
  simp only [PageRange.holds_iff, ← winPages_eq]
  rfl

/-- `BindPC98` over nothing: the decoder's pages and no other (R197). -/
theorem State.bindPc98_handlerAt (s : State) (addr : Word) :
    (s.latchBanks.bindPc98).handlerAt addr =
      if 0xA0000 ≤ addr.toNat ∧ addr.toNat ≤ 0xBFFFF then .pc98
      else if s.cfg.pc98.analog16 = true ∧ 0xE0000 ≤ addr.toNat ∧ addr.toNat ≤ 0xE7FFF then .pc98
      else .unmapped := by
  have hlow : (⟨0xA0, 32, .pc98⟩ : PageRange).holds (pageOf addr) = true ↔
      0xA0000 ≤ addr.toNat ∧ addr.toNat ≤ 0xBFFFF := by
    simp only [PageRange.holds_iff, pageOf]
    omega
  have hhigh : (⟨0xE0, 8, .pc98⟩ : PageRange).holds (pageOf addr) = true ↔
      0xE0000 ≤ addr.toNat ∧ addr.toNat ≤ 0xE7FFF := by
    simp only [PageRange.holds_iff, pageOf]
    omega
  rw [State.handlerAt, Binding.handler_cons _ ⟨0xA0, 32, .pc98⟩ _ rfl]
  simp only [hlow]
  congr 1
  cases ha : s.cfg.pc98.analog16 with
  | false =>
    have hcfg : s.latchBanks.cfg.pc98.analog16 = false := ha
    simp only [hcfg, Bool.false_eq_true, false_and, if_false]
    rfl
  | true =>
    have hcfg : s.latchBanks.cfg.pc98.analog16 = true := ha
    rw [Binding.handler_cons _ ⟨0xE0, 8, .pc98⟩ _ (by simp only [hcfg]; rfl)]
    simp only [hhigh, true_and]
    rfl

/-- `BindLegacy` over nothing: whatever pages the free value names, they have the tag (R192, log entry 15). -/
theorem State.bindLegacy_handlerAt (s : State) (h : Tag) (addr : Word) :
    (s.latchBanks.bindLegacy h).handlerAt addr = h ∨ (s.latchBanks.bindLegacy h).handlerAt addr = .unmapped := by
  obtain hnone | ⟨r, hr, htag⟩ := (s.latchBanks.bindLegacy h).binding.handler_cases (pageOf addr)
  · exact .inr hnone
  · left
    simp only [State.bindLegacy, State.setBinding_binding, State.latchBanks, List.append_nil, List.mem_map] at hr
    obtain ⟨pages, -, rfl⟩ := hr
    exact htag

/-- Settles O57: `BindPC98` and `BindLegacy` leave base and mask; the lookup of the first is exact, of the second the tag
or nothing. -/
theorem dispatchBindsPc98OrLegacy : Obligations.DispatchBindsPc98OrLegacy := by
  unfold Obligations.DispatchBindsPc98OrLegacy
  intro s h hwindowed htext
  have hw : ¬ s.plat.bindsByWindow h := by
    rintro (hw | ⟨ht, hm⟩)
    · rw [hwindowed] at hw
      cases hw
    · exact htext ht hm
  obtain ⟨hread, hwrite⟩ := s.dispatchWith_banks h
  obtain ⟨hbase, hmask⟩ := s.dispatchWith_window h
  have hpages := s.dispatchWith_handlerAt_eq h
  refine ⟨_, exec_disp h s, rfl, s.dispatchWith_setOut_keeps h .none, hread, hwrite, ?_⟩
  by_cases hp : h = .pc98
  · subst hp
    refine ⟨hbase, hmask, fun addr => ⟨fun _ => ?_, fun hne => absurd rfl hne⟩⟩
    exact (hpages addr).trans (by rw [← State.bindPc98_handlerAt]; rfl)
  · rw [State.bindTag_of_legacy (s := s.latchBanks) hw hp] at hbase hmask hpages
    refine ⟨hbase, hmask, fun addr => ⟨fun he => absurd he hp, fun _ => ?_⟩⟩
    split
    case isTrue hl => exact (hpages addr).trans (if_pos hl)
    case isFalse hl =>
      have hlook : ((s.dispatchWith h).setOut .none).handlerAt addr = (s.latchBanks.bindLegacy h).handlerAt addr :=
        (hpages addr).trans (if_neg hl)
      rw [hlook]
      exact s.bindLegacy_handlerAt h addr

end Sys2Proof.Machine
end

section
/-! Transactions in served pages (R202, log entry 14): a delivery to a served handler completes whatever budget and port
the state holds, so parts run one after the other do what their rows do. -/

namespace Sys2Proof.Machine

/-! ### Values as wide as their access (R11, R72) -/

/-- A bus value with no bit at or above `m`. -/
def fitsIn (m : Nat) (v : Word) : Prop := ∀ i, m ≤ i → v.getLsbD i = false

theorem fitsIn.eq_setWidth {m : Nat} {v : Word} (h : fitsIn m v) : v = (v.setWidth m).setWidth 32 := by
  apply BitVec.eq_of_getLsbD_eq
  intro i hi
  by_cases hm : i < m
  · simp [hi, hm]
  · simp [BitVec.getLsbD_setWidth, hm, h i (by omega)]

theorem fitsIn_setWidth {m : Nat} (b : BitVec m) : fitsIn m (b.setWidth 32) := by
  intro i hi
  simp [BitVec.getLsbD_setWidth, BitVec.getLsbD_of_ge b i hi]

theorem fitsIn_all (v : Word) : fitsIn 32 v := fun i hi => BitVec.getLsbD_of_ge v i hi

theorem fitsIn_zero (m : Nat) : fitsIn m 0#32 := fun _ _ => BitVec.getLsbD_zero

/-- A value of `k` bits put above one of `m` bits. -/
theorem fitsIn.shift_or {m k : Nat} {q r : Word} (hq : fitsIn k q) (hr : fitsIn m r) :
    fitsIn (k + m) ((q <<< m) ||| r) := by
  intro i hi
  simp [BitVec.getLsbD_or, BitVec.getLsbD_shiftLeft, hr i (by omega), hq (i - m) (by omega)]

theorem fitsIn.byteOf_zero {r : Word} (hr : fitsIn 8 r) (q : Word) : byteOf ((q <<< 8) ||| r) 0 = r.setWidth 8 := by
  rw [hr.eq_setWidth, byteOf_shift_zero, ← hr.eq_setWidth]

theorem fitsIn.byteOf_succ {r : Word} (hr : fitsIn 8 r) (q : Word) {k : Nat} (hk : k + 1 < 4) :
    byteOf ((q <<< 8) ||| r) (k + 1) = byteOf q k := by
  rw [hr.eq_setWidth, byteOf_shift_succ _ _ _ hk]

/-- Two byte results, four byte results and two word results put together little-endian, as the port shows them. -/
theorem Out.ofWidth_two_bytes {v0 : Word} (h0 : fitsIn 8 v0) (v1 : Word) :
    Out.ofWidth .word ((v1 <<< 8) ||| v0) = .half (v1.setWidth 8 ++ v0.setWidth 8) := by
  rw [Out.ofWidth_word, h0.byteOf_zero, h0.byteOf_succ _ (by decide), setWidth_eq_byteOf v1]

theorem Out.ofWidth_four_bytes {v0 v1 v2 : Word} (h0 : fitsIn 8 v0) (h1 : fitsIn 8 v1) (h2 : fitsIn 8 v2) (v3 : Word) :
    Out.ofWidth .dword ((((((v3 <<< 8) ||| v2) <<< 8) ||| v1) <<< 8) ||| v0) =
      .word ((v3.setWidth 8 ++ v2.setWidth 8) ++ (v1.setWidth 8 ++ v0.setWidth 8)) := by
  rw [Out.ofWidth_dword, h0.byteOf_zero, h0.byteOf_succ _ (by decide), h0.byteOf_succ _ (by decide),
    h0.byteOf_succ _ (by decide), h1.byteOf_zero, h1.byteOf_succ _ (by decide), h1.byteOf_succ _ (by decide),
    h2.byteOf_zero, h2.byteOf_succ _ (by decide), setWidth_eq_byteOf v3]

theorem Out.ofWidth_two_halves {v0 v1 : Word} (h0 : fitsIn 16 v0) (h1 : fitsIn 16 v1) :
    Out.ofWidth .dword ((v1 <<< 16) ||| v0) = .word (v1.setWidth 16 ++ v0.setWidth 16) := by
  have hhalves := halves_assembled (v0.setWidth 16) (v1.setWidth 16)
  rw [← h0.eq_setWidth, ← h1.eq_setWidth] at hhalves
  rw [← hhalves]
  simp [Out.ofWidth]

theorem readBytes_fitsIn (f : Word → State → Byte × State) : ∀ (n : Nat) (addr : Word) (s : State),
    fitsIn (8 * n) (readBytes f n addr s).1
  | 0, _, _ => fitsIn_zero _
  | n + 1, addr, s => (readBytes_fitsIn f n (addr + 1) (f addr s).2).shift_or (fitsIn_setWidth (f addr s).1)

theorem linearRead_fitsIn (flat : Word → Nat) (place : Nat → Nat) (w : Width) (addr : Word) (s : State) :
    fitsIn (8 * widthBytes w) (linearRead flat place w addr s) := by
  unfold linearRead
  split
  · cases w with
    | byte => exact fitsIn_setWidth (s.vbyte _)
    | word => exact fitsIn_setWidth (s.vhalf _)
    | dword => exact fitsIn_all _
  · exact readBytes_fitsIn _ _ _ _

theorem portRead_fitsIn (n : PortWidth) (addr : Word) (s : State) :
    fitsIn (8 * portBytes n) ((portRead n addr s).1.setWidth 32) := by
  cases n with
  | byte =>
    rw [← portReadByte_setWidth]
    exact fitsIn_setWidth (portReadByte addr s).1
  | word => exact fitsIn_setWidth (portRead .word addr s).1

/-! ### Deliveries to the decoder -/

theorem alignedAt.next_part {n : PortWidth} {addr : Word} (h : alignedAt n addr.toNat) :
    alignedAt n (addr + BitVec.ofNat 32 (portBytes n)).toNat := by
  cases n with
  | byte => exact .inl rfl
  | word => exact .inr (add_two_even (h.resolve_left (by decide)))

/-- Aligned decoder reads complete, under any budget and port, with a value as wide as they are together. -/
theorem decoderReads_completes {n : PortWidth} : ∀ (k : Nat) {addr : Word} (s : State), alignedAt n addr.toNat →
    ∃ (v : Word) (u : State), fitsIn (8 * portBytes n * k) v ∧
      ∀ c o, decoderReads n k addr (s.withPort c o) = .next (v, u.withPort c o)
  | 0, _, s, _ => ⟨0#32, s, fitsIn_zero _, fun _ _ => rfl⟩
  | k + 1, addr, s, h => by
    obtain ⟨v, u, hv, hu⟩ := decoderReads_completes k (portRead n addr s).2 h.next_part
    refine ⟨_, u, hv.shift_or (portRead_fitsIn n addr s), fun c o => ?_⟩
    rw [decoderReads, decoderRead_of_aligned h, portRead_withPort h, andThen_next, hu, andThen_next]

/-- Aligned decoder writes complete, under any budget and port. -/
theorem decoderWrites_completes {n : PortWidth} : ∀ (k : Nat) {addr : Word} (data : Word) (s : State),
    alignedAt n addr.toNat → ∃ u : State, ∀ c o, decoderWrites n k addr data (s.withPort c o) = .next (u.withPort c o)
  | 0, _, _, s, _ => ⟨s, fun _ _ => rfl⟩
  | k + 1, addr, data, s, h => by
    obtain ⟨u, hu⟩ := decoderWrites_completes k (data >>> (8 * portBytes n))
      (portWrite n addr (cutTo n (data.setWidth 16)) s) h.next_part
    exact ⟨u, fun c o => by rw [decoderWrites, decoderWrite_of_aligned h, portWrite_withPort h, andThen_next, hu]⟩

/-- The wrapper makes aligned accesses only (R77). -/
theorem wrapperSplit_aligned (w : Width) (addr : Word) : alignedAt (wrapperSplit w addr).1 addr.toNat := by
  cases w with
  | byte => exact .inl rfl
  | word | dword =>
    simp only [wrapperSplit]
    split
    · exact .inl rfl
    · exact .inr (by omega)

/-! ### Deliveries to the byte-linear handlers -/

theorem linearValue_withPort (s : State) (h : Tag) (w : Width) (addr : Word) (c : Int) (o : Out) :
    (s.withPort c o).linearValue h w addr = s.linearValue h w addr := by
  unfold State.linearValue linearRead
  refine ite_congr rfl (fun _ => ?_) fun _ => ?_
  · cases w <;> rfl
  · exact (congrArg Prod.fst (readBytes_withPort (fun _ _ _ _ => rfl) c o (widthBytes w) addr s)).trans rfl

theorem linearStore_withPort (s : State) (h : Tag) (w : Width) (addr data : Word) (c : Int) (o : Out) :
    (s.withPort c o).linearStore h w addr data = (s.linearStore h w addr data).withPort c o := by
  unfold State.linearStore linearWrite
  refine State.ite_withPort .rfl ?_ ?_
  · cases w <;> rfl
  · exact writeBytes_withPort (fun _ _ _ _ _ => rfl) c o (widthBytes w) addr data s

/-! ### Deliveries to a served handler -/

theorem served_cases {h : Tag} (hs : h.served = true) : h.latched = true ∨ h.byteLinear = true ∨ h = .pc98 := by
  revert hs
  cases h <;> decide

theorem serveRead_latched {h : Tag} (hh : h.latched = true) (w : Width) (addr : Word) (s : State) :
    serveRead h w addr s = .next (readBytes (latchedRead h) (widthBytes w) addr s.debitRead) := by
  obtain rfl | rfl | rfl := latched_cases hh
  all_goals rfl

theorem serveWrite_latched {h : Tag} (hh : h.latched = true) (w : Width) (addr data : Word) (s : State) :
    serveWrite h w addr data s = .next (writeBytes (latchedWrite h) (widthBytes w) addr data s.debitWrite) := by
  obtain rfl | rfl | rfl := latched_cases hh
  all_goals rfl

theorem State.debitRead_withPort (s : State) (c : Int) (o : Out) :
    (s.withPort c o).debitRead = s.withPort (c - s.plat.readDelay) o := rfl

theorem State.debitWrite_withPort (s : State) (c : Int) (o : Out) :
    (s.withPort c o).debitWrite = s.withPort (c - s.plat.writeDelay) o := rfl

/-- A read delivered to a served handler completes with a value as wide as it is and one debit, whatever budget and port
the state holds. -/
theorem serveRead_completes {h : Tag} (hs : h.served = true) (w : Width) (addr : Word) (s : State) :
    ∃ (v : Word) (u : State), fitsIn (8 * widthBytes w) v ∧
      ∀ c o, serveRead h w addr (s.withPort c o) = .next (v, u.withPort (c - s.plat.readDelay) o) := by
  obtain hh | hh | rfl := served_cases hs
  · refine ⟨_, (readBytes (latchedRead h) (widthBytes w) addr s).2, readBytes_fitsIn (latchedRead h) _ addr s,
      fun c o => ?_⟩
    rw [serveRead_latched hh, State.debitRead_withPort, readBytes_withPort (latched_readsBy hh).blind]
  · refine ⟨s.linearValue h w addr, s, linearRead_fitsIn _ _ w addr s, fun c o => ?_⟩
    rw [serveRead_byteLinear hh, State.debitRead_withPort, linearValue_withPort]
  · obtain ⟨v, u, hv, hu⟩ := decoderReads_completes (wrapperSplit w addr).2 s (wrapperSplit_aligned w addr)
    rw [Nat.mul_assoc, wrapperSplit_bytes] at hv
    exact ⟨v, u, hv, fun c o => hu _ o⟩

/-- A write delivered to a served handler completes with one debit, whatever budget and port the state holds. -/
theorem serveWrite_completes {h : Tag} (hs : h.served = true) (w : Width) (addr data : Word) (s : State) :
    ∃ u : State, ∀ c o, serveWrite h w addr data (s.withPort c o) = .next (u.withPort (c - s.plat.writeDelay) o) := by
  obtain hh | hh | rfl := served_cases hs
  · refine ⟨writeBytes (latchedWrite h) (widthBytes w) addr data s, fun c o => ?_⟩
    rw [serveWrite_latched hh, State.debitWrite_withPort, writeBytes_withPort (latched_writesBy hh).blind]
  · refine ⟨s.linearStore h w addr data, fun c o => ?_⟩
    rw [serveWrite_byteLinear hh, State.debitWrite_withPort, linearStore_withPort]
  · obtain ⟨u, hu⟩ := decoderWrites_completes (wrapperSplit w addr).2 data s (wrapperSplit_aligned w addr)
    exact ⟨u, fun c o => hu _ o⟩

/-! ### One part of a transaction -/

/-- A read delivered to `h` answers `v` and leaves `u`; the row of `h` does the same whatever the port held. -/
structure ReadPart (h : Tag) (w : Width) (addr : Word) (s : State) (v : Word) (u : State) : Prop where
  serve : serveRead h w addr s = .next (v, u)
  row : (h = .pc98 → w.direct addr) →
    ∀ o, exec (Instr.busRd w addr h) (s.setOut o) = .next (u.setOut (Out.ofWidth w v))
  handlerAt : ∀ x, u.handlerAt x = s.handlerAt x
  fits : fitsIn (8 * widthBytes w) v

/-- A write delivered to `h` leaves `u`; the row of `h` does the same whatever the port held. -/
structure WritePart (h : Tag) (w : Width) (addr data : Word) (s u : State) : Prop where
  serve : serveWrite h w addr data s = .next u
  row : (h = .pc98 → w.direct addr) →
    ∀ o, exec (Instr.busWr w addr data h) (s.setOut o) = .next (u.setOut .none)
  handlerAt : ∀ x, u.handlerAt x = s.handlerAt x

theorem State.handlerAt_of_binding {s t : State} (h : t.binding = s.binding) (x : Word) :
    t.handlerAt x = s.handlerAt x := by
  rw [State.handlerAt, h, State.handlerAt]

theorem readPart_of_served {h : Tag} (hs : h.served = true) (w : Width) (addr : Word) (s : State) :
    ∃ v u, ReadPart h w addr s v u := by
  obtain ⟨v, u, hv, hu⟩ := serveRead_completes hs w addr s
  have serve := hu s.cyclesLeft s.out
  refine ⟨v, _, serve, fun hd o => ?_, State.handlerAt_of_binding (serveRead_keeps serve .binding (by decide)),
    hv⟩
  rw [exec_busRd _ hd, show s.setOut o = s.withPort s.cyclesLeft o from rfl, hu]
  rfl

theorem writePart_of_served {h : Tag} (hs : h.served = true) (w : Width) (addr data : Word) (s : State) :
    ∃ u, WritePart h w addr data s u := by
  obtain ⟨u, hu⟩ := serveWrite_completes hs w addr data s
  have serve := hu s.cyclesLeft s.out
  refine ⟨_, serve, fun hd o => ?_, State.handlerAt_of_binding (serveWrite_keeps serve .binding (by decide))⟩
  rw [exec_busWr _ _ hd, show s.setOut o = s.withPort s.cyclesLeft o from rfl, hu]
  rfl

theorem ReadPart.row_self {h : Tag} {w : Width} {addr v : Word} {s u : State} (p : ReadPart h w addr s v u)
    (hd : h = .pc98 → w.direct addr) : exec (Instr.busRd w addr h) s = .next (u.setOut (Out.ofWidth w v)) :=
  p.row hd s.out

theorem WritePart.row_self {h : Tag} {w : Width} {addr data : Word} {s u : State} (p : WritePart h w addr data s u)
    (hd : h = .pc98 → w.direct addr) : exec (Instr.busWr w addr data h) s = .next (u.setOut .none) :=
  p.row hd s.out

/-! ### All parts -/

section
variable {h : Tag} {w : Width} {addr x : Word} {s u : State}

/-- A first part and the parts after it. -/
theorem ReadPart.parts_succ {v q : Word} {t : State} {k : Nat} (p : ReadPart h w addr s v u)
    (hh : s.handlerAt addr = h) (hx : addr + BitVec.ofNat 32 (widthBytes w) = x)
    (hrest : readParts w k x u = .next (q, t)) :
    readParts w (k + 1) addr s = .next ((q <<< (8 * widthBytes w)) ||| v, t) := by
  rw [readParts, hh, p.serve, andThen_next, hx, hrest, andThen_next]

theorem ReadPart.parts_one {v : Word} (p : ReadPart h w addr s v u) (hh : s.handlerAt addr = h) :
    readParts w 1 addr s = .next (v, u) := by
  rw [p.parts_succ hh rfl (q := 0#32) (t := u) rfl, BitVec.zero_shiftLeft, BitVec.zero_or]

theorem WritePart.parts_succ {data rest : Word} {t : State} {k : Nat} (p : WritePart h w addr data s u)
    (hh : s.handlerAt addr = h) (hx : addr + BitVec.ofNat 32 (widthBytes w) = x)
    (hd : data >>> (8 * widthBytes w) = rest) (hrest : writeParts w k x rest u = .next t) :
    writeParts w (k + 1) addr data s = .next t := by
  rw [writeParts, hh, p.serve, andThen_next, hx, hd, hrest]

theorem WritePart.parts_one {data : Word} (p : WritePart h w addr data s u) (hh : s.handlerAt addr = h) :
    writeParts w 1 addr data s = .next u := p.parts_succ hh rfl rfl rfl

end

/-- Part `j + 1` of a transaction is part `j` of what follows its first part. -/
theorem partAddr_succ (addr : Word) (n j : Nat) :
    addr + BitVec.ofNat 32 n + BitVec.ofNat 32 (n * j) = addr + BitVec.ofNat 32 (n * (j + 1)) := by
  rw [BitVec.add_assoc, ← BitVec.ofNat_add, Nat.mul_succ, Nat.add_comm]

theorem readParts_completes (w : Width) : ∀ (k : Nat) (addr : Word) (s : State),
    (∀ j, j < k → (s.handlerAt (addr + BitVec.ofNat 32 (widthBytes w * j))).served = true) →
    ∃ v t, readParts w k addr s = .next (v, t)
  | 0, _, s, _ => ⟨0#32, s, rfl⟩
  | k + 1, addr, s, hs => by
    have hfirst := hs 0 (Nat.succ_pos k)
    rw [Nat.mul_zero, BitVec.add_zero] at hfirst
    obtain ⟨v, u, p⟩ := readPart_of_served hfirst w addr s
    obtain ⟨q, t, hrest⟩ := readParts_completes w k (addr + BitVec.ofNat 32 (widthBytes w)) u fun j hj => by
      rw [p.handlerAt, partAddr_succ]
      exact hs (j + 1) (Nat.succ_lt_succ hj)
    exact ⟨_, t, p.parts_succ rfl rfl hrest⟩

theorem writeParts_completes (w : Width) : ∀ (k : Nat) (addr data : Word) (s : State),
    (∀ j, j < k → (s.handlerAt (addr + BitVec.ofNat 32 (widthBytes w * j))).served = true) →
    ∃ t, writeParts w k addr data s = .next t
  | 0, _, _, s, _ => ⟨s, rfl⟩
  | k + 1, addr, data, s, hs => by
    have hfirst := hs 0 (Nat.succ_pos k)
    rw [Nat.mul_zero, BitVec.add_zero] at hfirst
    obtain ⟨u, p⟩ := writePart_of_served hfirst w addr data s
    obtain ⟨t, hrest⟩ := writeParts_completes w k (addr + BitVec.ofNat 32 (widthBytes w))
      (data >>> (8 * widthBytes w)) u fun j hj => by
        rw [p.handlerAt, partAddr_succ]
        exact hs (j + 1) (Nat.succ_lt_succ hj)
    exact ⟨t, p.parts_succ rfl rfl rfl hrest⟩

/-- The parts cover the bytes of the transaction. -/
theorem State.busSplit_bytes (s : State) (w : Width) (addr : Word) :
    widthBytes (s.busSplit w addr).1 * (s.busSplit w addr).2 = widthBytes w := by
  unfold State.busSplit
  split
  · exact Nat.mul_one _
  · cases w with
    | byte | word => rfl
    | dword => dsimp only; split <;> rfl

/-- Every part of a transaction in served pages is at a served address. -/
theorem State.busSplit_served {s : State} {w : Width} {addr : Word}
    (hs : ∀ k, k < widthBytes w → (s.handlerAt (addr + BitVec.ofNat 32 k)).served = true) {j : Nat}
    (hj : j < (s.busSplit w addr).2) :
    (s.handlerAt (addr + BitVec.ofNat 32 (widthBytes (s.busSplit w addr).1 * j))).served = true := by
  refine hs _ (lt_of_lt_of_eq (Nat.mul_lt_mul_of_pos_left hj ?_) (s.busSplit_bytes w addr))
  cases (s.busSplit w addr).1 <;> decide

/-- `k` parts of a write read the low bits of the value they carry only. -/
theorem writeParts_congr (w : Width) : ∀ (k : Nat) (addr d e : Word) (s : State),
    agreeBelow (8 * widthBytes w * k) d e → writeParts w k addr d s = writeParts w k addr e s
  | 0, _, _, _, _, _ => rfl
  | k + 1, addr, d, e, s, h => by
    rw [Nat.mul_succ, Nat.add_comm] at h
    have ih := fun t => writeParts_congr w k (addr + BitVec.ofNat 32 (widthBytes w)) _ _ t h.shift
    simp only [writeParts, serveWrite_congr _ w addr s (h.mono (Nat.le_add_right _ _)), ih]

/-- A transaction row splits the data it was given, cut or not. -/
theorem exec_wrRow_parts (w : Width) (addr data : Word) (s : State) :
    exec (w.wrRow addr data) s =
      finishWrite (writeParts (s.busSplit w addr).1 (s.busSplit w addr).2 addr data s) := by
  have hdata := rowData_agree w data
  rw [← s.busSplit_bytes w addr, ← Nat.mul_assoc] at hdata
  rw [exec_wrRow, memWrite, writeParts_congr _ _ addr _ _ s hdata]

theorem exec_rdRow_parts (w : Width) (addr : Word) (s : State) :
    exec (w.rdRow addr) s = finishRead w (readParts (s.busSplit w addr).1 (s.busSplit w addr).2 addr s) :=
  exec_rdRow w addr s

/-! ### Over two bindings (log entry 14) -/

theorem byte_direct (addr : Word) : Width.direct .byte addr := .inl (by decide)

section
variable (s : State) {addr : Word}

/-- The parts of a transaction over two bindings (log entry 14). -/
theorem State.busSplit_of_not_same {w : Width}
    (h : s.sameBinding addr (addr + BitVec.ofNat 32 (widthBytes w - 1)) = false) :
    s.busSplit w addr =
      match w with
      | .byte => (.byte, 1)
      | .word => (.byte, 2)
      | .dword => if addr.toNat % 2 = 1 then (.byte, 4) else (.word, 2) := by
  unfold State.busSplit
  rw [if_neg (Bool.eq_false_iff.1 h)]
  cases w <;> rfl

theorem addr_add_one_one : addr + 1 + 1 = addr + 2 := by
  rw [BitVec.add_assoc]
  rfl

theorem addr_add_two_one : addr + 2 + 1 = addr + 3 := by
  rw [BitVec.add_assoc]
  rfl

/-- A word over two bindings is two byte reads. -/
theorem rd16_parts (h0 : (s.handlerAt addr).served = true) (h1 : (s.handlerAt (addr + 1)).served = true)
    (hsplit : s.busSplit .word addr = (.byte, 2)) : ∃ t0 t1 b0 b1,
      exec (Instr.busRd .byte addr (s.handlerAt addr)) s = .next t0 ∧ t0.out = .byte b0 ∧
      exec (Instr.busRd .byte (addr + 1) (s.handlerAt (addr + 1))) t0 = .next t1 ∧ t1.out = .byte b1 ∧
      exec (.rd16 addr) s = .next (t1.setOut (.half (b1 ++ b0))) := by
  obtain ⟨v0, u0, p0⟩ := readPart_of_served h0 .byte addr s
  obtain ⟨v1, u1, p1⟩ := readPart_of_served h1 .byte (addr + 1) u0
  refine ⟨_, _, _, _, p0.row_self fun _ => byte_direct _, rfl, p1.row (fun _ => byte_direct _) _, rfl, ?_⟩
  have hparts : readParts .byte 2 addr s = .next ((v1 <<< 8) ||| v0, u1) :=
    p0.parts_succ rfl rfl (p1.parts_one (p0.handlerAt _))
  have hrow := exec_rdRow_parts .word addr s
  rw [hsplit, hparts] at hrow
  exact hrow.trans (congrArg (fun o => Host.Outcome.next (u1.setOut o)) (Out.ofWidth_two_bytes p0.fits v1))

/-- A doubleword over two bindings at an even address is two word reads. -/
theorem rd32_even_parts (h0 : (s.handlerAt addr).served = true) (h2 : (s.handlerAt (addr + 2)).served = true)
    (heven : addr.toNat % 2 = 0) (hsplit : s.busSplit .dword addr = (.word, 2)) : ∃ t0 t1 x0 x1,
      exec (Instr.busRd .word addr (s.handlerAt addr)) s = .next t0 ∧ t0.out = .half x0 ∧
      exec (Instr.busRd .word (addr + 2) (s.handlerAt (addr + 2))) t0 = .next t1 ∧ t1.out = .half x1 ∧
      exec (.rd32 addr) s = .next (t1.setOut (.word (x1 ++ x0))) := by
  obtain ⟨v0, u0, p0⟩ := readPart_of_served h0 .word addr s
  obtain ⟨v1, u1, p1⟩ := readPart_of_served h2 .word (addr + 2) u0
  refine ⟨_, _, _, _, p0.row_self fun _ => .inr heven, rfl, p1.row (fun _ => .inr (add_two_even heven)) _, rfl, ?_⟩
  have hparts : readParts .word 2 addr s = .next ((v1 <<< 16) ||| v0, u1) :=
    p0.parts_succ rfl rfl (p1.parts_one (p0.handlerAt _))
  have hrow := exec_rdRow_parts .dword addr s
  rw [hsplit, hparts] at hrow
  exact hrow.trans (congrArg (fun o => Host.Outcome.next (u1.setOut o)) (Out.ofWidth_two_halves p0.fits p1.fits))

/-- A doubleword over two bindings at an odd address is four byte reads. -/
theorem rd32_odd_parts (h0 : (s.handlerAt addr).served = true) (h1 : (s.handlerAt (addr + 1)).served = true)
    (h2 : (s.handlerAt (addr + 2)).served = true) (h3 : (s.handlerAt (addr + 3)).served = true)
    (hsplit : s.busSplit .dword addr = (.byte, 4)) : ∃ t0 t1 t2 t3 b0 b1 b2 b3,
      exec (Instr.busRd .byte addr (s.handlerAt addr)) s = .next t0 ∧ t0.out = .byte b0 ∧
      exec (Instr.busRd .byte (addr + 1) (s.handlerAt (addr + 1))) t0 = .next t1 ∧ t1.out = .byte b1 ∧
      exec (Instr.busRd .byte (addr + 2) (s.handlerAt (addr + 2))) t1 = .next t2 ∧ t2.out = .byte b2 ∧
      exec (Instr.busRd .byte (addr + 3) (s.handlerAt (addr + 3))) t2 = .next t3 ∧ t3.out = .byte b3 ∧
      exec (.rd32 addr) s = .next (t3.setOut (.word ((b3 ++ b2) ++ (b1 ++ b0)))) := by
  obtain ⟨v0, u0, p0⟩ := readPart_of_served h0 .byte addr s
  obtain ⟨v1, u1, p1⟩ := readPart_of_served h1 .byte (addr + 1) u0
  obtain ⟨v2, u2, p2⟩ := readPart_of_served h2 .byte (addr + 2) u1
  obtain ⟨v3, u3, p3⟩ := readPart_of_served h3 .byte (addr + 3) u2
  have hd (x : Word) (_ : s.handlerAt x = .pc98) : Width.direct .byte x := byte_direct x
  refine ⟨_, _, _, _, _, _, _, _, p0.row_self (hd _), rfl, p1.row (hd _) _, rfl, p2.row (hd _) _, rfl, p3.row (hd _) _,
    rfl, ?_⟩
  have k1 (x : Word) : u1.handlerAt x = s.handlerAt x := (p1.handlerAt x).trans (p0.handlerAt x)
  have k2 (x : Word) : u2.handlerAt x = s.handlerAt x := (p2.handlerAt x).trans (k1 x)
  have hparts : readParts .byte 4 addr s =
      .next ((((((v3 <<< 8) ||| v2) <<< 8) ||| v1) <<< 8) ||| v0, u3) :=
    p0.parts_succ rfl rfl (p1.parts_succ (p0.handlerAt _) addr_add_one_one
      (p2.parts_succ (k1 _) addr_add_two_one (p3.parts_one (k2 _))))
  have hrow := exec_rdRow_parts .dword addr s
  rw [hsplit, hparts] at hrow
  exact hrow.trans (congrArg (fun o => Host.Outcome.next (u3.setOut o))
    (Out.ofWidth_four_bytes p0.fits p1.fits p2.fits v3))

variable (data : Word)

/-- A word over two bindings is two byte writes. -/
theorem wr16_parts (h0 : (s.handlerAt addr).served = true) (h1 : (s.handlerAt (addr + 1)).served = true)
    (hsplit : s.busSplit .word addr = (.byte, 2)) : ∃ t0 t1,
      exec (Instr.busWr .byte addr data (s.handlerAt addr)) s = .next t0 ∧
      exec (Instr.busWr .byte (addr + 1) (data >>> 8) (s.handlerAt (addr + 1))) t0 = .next t1 ∧
      exec (.wr16 addr (data.setWidth 16)) s = .next t1 := by
  obtain ⟨u0, p0⟩ := writePart_of_served h0 .byte addr data s
  obtain ⟨u1, p1⟩ := writePart_of_served h1 .byte (addr + 1) (data >>> 8) u0
  refine ⟨_, _, p0.row_self fun _ => byte_direct _, p1.row (fun _ => byte_direct _) _, ?_⟩
  have hparts : writeParts .byte 2 addr data s = .next u1 :=
    p0.parts_succ rfl rfl rfl (p1.parts_one (p0.handlerAt _))
  have hrow := exec_wrRow_parts .word addr data s
  rw [hsplit, hparts] at hrow
  exact hrow

/-- A doubleword over two bindings at an even address is two word writes. -/
theorem wr32_even_parts (h0 : (s.handlerAt addr).served = true) (h2 : (s.handlerAt (addr + 2)).served = true)
    (heven : addr.toNat % 2 = 0) (hsplit : s.busSplit .dword addr = (.word, 2)) : ∃ t0 t1,
      exec (Instr.busWr .word addr data (s.handlerAt addr)) s = .next t0 ∧
      exec (Instr.busWr .word (addr + 2) (data >>> 16) (s.handlerAt (addr + 2))) t0 = .next t1 ∧
      exec (.wr32 addr data) s = .next t1 := by
  obtain ⟨u0, p0⟩ := writePart_of_served h0 .word addr data s
  obtain ⟨u1, p1⟩ := writePart_of_served h2 .word (addr + 2) (data >>> 16) u0
  refine ⟨_, _, p0.row_self fun _ => .inr heven, p1.row (fun _ => .inr (add_two_even heven)) _, ?_⟩
  have hparts : writeParts .word 2 addr data s = .next u1 :=
    p0.parts_succ rfl rfl rfl (p1.parts_one (p0.handlerAt _))
  have hrow := exec_wrRow_parts .dword addr data s
  rw [hsplit, hparts] at hrow
  exact hrow

/-- A doubleword over two bindings at an odd address is four byte writes. -/
theorem wr32_odd_parts (h0 : (s.handlerAt addr).served = true) (h1 : (s.handlerAt (addr + 1)).served = true)
    (h2 : (s.handlerAt (addr + 2)).served = true) (h3 : (s.handlerAt (addr + 3)).served = true)
    (hsplit : s.busSplit .dword addr = (.byte, 4)) : ∃ t0 t1 t2 t3,
      exec (Instr.busWr .byte addr data (s.handlerAt addr)) s = .next t0 ∧
      exec (Instr.busWr .byte (addr + 1) (data >>> 8) (s.handlerAt (addr + 1))) t0 = .next t1 ∧
      exec (Instr.busWr .byte (addr + 2) (data >>> 16) (s.handlerAt (addr + 2))) t1 = .next t2 ∧
      exec (Instr.busWr .byte (addr + 3) (data >>> 24) (s.handlerAt (addr + 3))) t2 = .next t3 ∧
      exec (.wr32 addr data) s = .next t3 := by
  obtain ⟨u0, p0⟩ := writePart_of_served h0 .byte addr data s
  obtain ⟨u1, p1⟩ := writePart_of_served h1 .byte (addr + 1) (data >>> 8) u0
  obtain ⟨u2, p2⟩ := writePart_of_served h2 .byte (addr + 2) (data >>> 16) u1
  obtain ⟨u3, p3⟩ := writePart_of_served h3 .byte (addr + 3) (data >>> 24) u2
  have hd (x : Word) (_ : s.handlerAt x = .pc98) : Width.direct .byte x := byte_direct x
  refine ⟨_, _, _, _, p0.row_self (hd _), p1.row (hd _) _, p2.row (hd _) _, p3.row (hd _) _, ?_⟩
  have k1 (x : Word) : u1.handlerAt x = s.handlerAt x := (p1.handlerAt x).trans (p0.handlerAt x)
  have k2 (x : Word) : u2.handlerAt x = s.handlerAt x := (p2.handlerAt x).trans (k1 x)
  have s2 : data >>> 8 >>> 8 = data >>> 16 := (BitVec.shiftRight_add data 8 8).symm
  have s3 : data >>> 16 >>> 8 = data >>> 24 := (BitVec.shiftRight_add data 16 8).symm
  have hparts : writeParts .byte 4 addr data s = .next u3 :=
    p0.parts_succ rfl rfl rfl (p1.parts_succ (p0.handlerAt _) addr_add_one_one s2
      (p2.parts_succ (k1 _) addr_add_two_one s3 (p3.parts_one (k2 _))))
  have hrow := exec_wrRow_parts .dword addr data s
  rw [hsplit, hparts] at hrow
  exact hrow

end

/-- Settles O29: each part completes, so all of them do; over two bindings the parts are those of the statement. -/
theorem transactionsComplete : Obligations.TransactionsComplete := by
  unfold Obligations.TransactionsComplete
  intro s w addr data hs rd wr
  have h0 : (s.handlerAt addr).served = true := by
    simpa using hs 0 (by cases w <;> decide)
  refine ⟨?_, ?_, ?_, ?_, ?_⟩
  · obtain ⟨v, t, ht⟩ := readParts_completes _ _ addr s fun j => State.busSplit_served hs (j := j)
    exact ⟨t.setOut (Out.ofWidth w v), by rw [exec_rdRow_parts, ht]; rfl, memRead_keeps (w := w) ht .vram (by decide)⟩
  · obtain ⟨t, ht⟩ := writeParts_completes _ _ addr (rowData w data) s fun j => State.busSplit_served hs (j := j)
    exact ⟨t.setOut .none, by rw [exec_wrRow, memWrite, ht]; rfl, memWrite_keeps (w := w) ht .latch (by decide)⟩
  · rintro rfl hsame
    have hsplit : s.busSplit .word addr = (.byte, 2) := s.busSplit_of_not_same (w := .word) hsame
    have h1 := hs 1 (by decide)
    exact ⟨rd16_parts s h0 h1 hsplit, wr16_parts s data h0 h1 hsplit⟩
  · rintro rfl hsame heven
    have hsplit : s.busSplit .dword addr = (.word, 2) :=
      (s.busSplit_of_not_same (w := .dword) hsame).trans (if_neg (by omega))
    have h2 := hs 2 (by decide)
    exact ⟨rd32_even_parts s h0 h2 heven hsplit, wr32_even_parts s data h0 h2 heven hsplit⟩
  · rintro rfl hsame hodd
    have hsplit : s.busSplit .dword addr = (.byte, 4) :=
      (s.busSplit_of_not_same (w := .dword) hsame).trans (if_pos hodd)
    have h1 := hs 1 (by decide)
    have h2 := hs 2 (by decide)
    have h3 := hs 3 (by decide)
    exact ⟨rd32_odd_parts s h0 h1 h2 h3 hsplit, wr32_odd_parts s data h0 h1 h2 h3 hsplit⟩

end Sys2Proof.Machine
end

section
/-! Decoder accesses of VRAM, byte by byte (R14, R251): the lanes of a 16-bit value, what a read returns, what a write
stores and leaves. -/

namespace Sys2Proof.Machine

/-! ### Bits and lanes of a 16-bit value (R251) -/

theorem getLane_getLsbD (x : Half) (ln : Bool) {j : Nat} (hj : j < 8) :
    (getLane x ln).getLsbD j = x.getLsbD (8 * ln.toNat + j) := by
  cases ln <;> exact (BitVec.getLsbD_extractLsb' ..).trans (by simp [hj])

/-- A bit of a 16-bit value stands in the lane of its byte. -/
theorem getLsbD_eq_getLane (x : Half) {j : Nat} (hj : j < 16) :
    x.getLsbD j = (getLane x (decide (j / 8 = 1))).getLsbD (j % 8) := by
  have hlane : (decide (j / 8 = 1)).toNat = j / 8 := by
    obtain h | h : j / 8 = 0 ∨ j / 8 = 1 := by omega
    all_goals rw [h]; rfl
  rw [getLane_getLsbD x _ (Nat.mod_lt j (by decide)), hlane, Nat.div_add_mod]

theorem getLane_and (x y : Half) (ln : Bool) : getLane (x &&& y) ln = getLane x ln &&& getLane y ln := by
  cases ln <;> exact BitVec.extractLsb'_and

theorem getLane_or (x y : Half) (ln : Bool) : getLane (x ||| y) ln = getLane x ln ||| getLane y ln := by
  cases ln <;> exact BitVec.extractLsb'_or

theorem getLane_not (x : Half) (ln : Bool) : getLane (~~~x) ln = ~~~getLane x ln := by
  refine BitVec.eq_of_getLsbD_eq fun j hj => ?_
  have hbit : 8 * ln.toNat + j < 16 := by cases ln <;> simp <;> omega
  simp only [BitVec.getLsbD_not, getLane_getLsbD _ _ hj, hj, hbit]

/-! ### Reads -/

theorem portBytes_le_two (n : PortWidth) : portBytes n ≤ 2 := by cases n <;> decide

theorem ofPort_pread (s : State) (o : Nat) (n : PortWidth) : Out.ofPort n (s.pread o n) = match n with
    | .byte => .byte (s.vramAt (s.wrap o))
    | .word => .half (s.vramAt (s.wrap (o + 1)) ++ s.vramAt (s.wrap o)) := by
  cases n with
  | byte => exact congrArg Out.byte (BitVec.setWidth_setWidth_of_le _ (by decide))
  | word => rfl

/-- Byte `k` of a decoder read is the VRAM byte at its offset. -/
theorem getLane_pread (s : State) (o : Nat) {n : PortWidth} {k : Nat} (hk : k < portBytes n) :
    getLane (s.pread o n) (decide (k = 1)) = s.vramAt (s.wrap (o + k)) := by
  cases n with
  | byte =>
    obtain rfl : k = 0 := Nat.lt_one_iff.1 hk
    exact getLane_setWidth _
  | word =>
    obtain rfl | rfl : k = 0 ∨ k = 1 := Nat.le_one_iff_eq_zero_or_eq_one.1 (Nat.le_of_lt_succ hk)
    · exact getLane_append _ _ false
    · exact getLane_append _ _ true

/-- Bit `j` of a decoder read is bit `j % 8` of its byte `j / 8`. -/
theorem State.pread_getLsbD (s : State) (o : Nat) {n : PortWidth} {j : Nat} (hj : j < 8 * portBytes n) :
    (s.pread o n).getLsbD j = (s.vramAt (s.wrap (o + j / 8))).getLsbD (j % 8) := by
  have hn := portBytes_le_two n
  rw [getLsbD_eq_getLane _ (by omega), getLane_pread s o (Nat.div_lt_of_lt_mul hj)]

/-! ### Writes -/

/-- Consecutive byte offsets stay distinct under the wrap. -/
theorem State.wrap_succ_ne (s : State) (h : 2 ≤ s.plat.vmemBits) (o : Nat) : s.wrap (o + 1) ≠ s.wrap o := by
  have hsize : 4 ∣ s.plat.vmemSize := Platform.four_dvd_vmemSize h
  intro heq
  have hlow : (o + 1) % 4 = o % 4 := Nat.ModEq.of_dvd hsize heq
  omega

section
variable {s : State} (hwf : s.vram.wf = true) (hb : 2 ≤ s.plat.vmemBits)
include hwf hb

/-- A decoder write stores byte `k` of the value at its offset. -/
theorem State.pwrite_vramAt_add (o : Nat) {n : PortWidth} (v : Half) {k : Nat} (hk : k < portBytes n) :
    (s.pwrite o n v).vramAt (s.wrap (o + k)) = getLane v (decide (k = 1)) := by
  cases n with
  | byte =>
    obtain rfl : k = 0 := Nat.lt_one_iff.1 hk
    exact (State.putByte_vramAt hwf _ _ _).trans ((if_pos rfl).trans (setWidth_eq_getLane v))
  | word =>
    obtain rfl | rfl : k = 0 ∨ k = 1 := Nat.le_one_iff_eq_zero_or_eq_one.1 (Nat.le_of_lt_succ hk)
    · exact (State.putHalf_vramAt hwf _ _ _).trans ((if_neg (s.wrap_succ_ne hb o).symm).trans (if_pos rfl))
    · exact (State.putHalf_vramAt hwf _ _ _).trans (if_pos rfl)

/-- A decoder write stores the bytes of the access, the low byte first, and leaves every other byte. -/
theorem State.pwrite_stores (o : Nat) (n : PortWidth) (v : Half) :
    (s.pwrite o n v).vramAt (s.wrap o) = getLane v false ∧
    (n = .word → (s.pwrite o n v).vramAt (s.wrap (o + 1)) = getLane v true) ∧
    ∀ x, s.outside o (portBytes n) x → (s.pwrite o n v).vramAt x = s.vramAt x := by
  refine ⟨State.pwrite_vramAt_add hwf hb o (k := 0) v (by cases n <;> decide), ?_,
    fun x hx => State.pwrite_outside hwf hx v⟩
  rintro rfl
  exact State.pwrite_vramAt_add hwf hb o (k := 1) v (by decide)

end

end Sys2Proof.Machine
end

section
/-! The MSW window and the text regions (R214 to R221), the pass-through rows (R224, R225, R230) and the load of a tile
register (R236). -/

namespace Sys2Proof.Machine

/-! ### Attribute RAM (R218, R219) -/

/-- The region offset has the parity of the address (R213). -/
theorem regionOffset_mod_two (addr : Word) : regionOffset addr % 2 = addr.toNat % 2 := by
  rw [← fold_eq_regionOffset, fold]
  split <;> omega

/-- A high byte of ones over a stored byte (R218). -/
theorem or_high_ones (b : Byte) : b.setWidth 16 ||| 0xFF00#16 = 0xFF#8 ++ b := by
  have hbyte : b.setWidth 16 = 0#8 ++ b := BitVec.setWidth_eq_append (by decide)
  calc b.setWidth 16 ||| 0xFF00#16 = (0#8 ++ b) ||| (0xFF#8 ++ 0#8) := congrArg (· ||| 0xFF00#16) hbyte
    _ = (0#8 ||| 0xFF#8) ++ (b ||| 0#8) := BitVec.or_append
    _ = 0xFF#8 ++ b := congrArg (0xFF#8 ++ ·) BitVec.or_zero

/-- The word that `PC98.ATTR.WR` stores: the low byte of the value under a byte of ones (R219). -/
theorem getLane_attrWord (v : Half) (ln : Bool) :
    getLane ((v &&& 0x00FF#16) ||| 0xFF00#16) ln = if ln then 0xFF#8 else getLane v false := by
  rw [getLane_or, getLane_and]
  cases ln with
  | false =>
    show getLane v false &&& BitVec.allOnes 8 ||| 0#8 = _
    rw [BitVec.and_allOnes, BitVec.or_zero]
    rfl
  | true =>
    show getLane v true &&& 0#8 ||| 0xFF#8 = _
    rw [BitVec.and_zero]
    rfl

theorem ofPort_attrRead (s : State) (o : Nat) (n : PortWidth) : Out.ofPort n (s.attrRead o n) = match n with
    | .byte => .byte (if o % 2 = 1 then 0xFF#8 else s.vramAt (s.wrap o))
    | .word => .half (0xFF#8 ++ s.vramAt (s.wrap o)) := by
  cases n with
  | byte =>
    rw [State.attrRead]
    split
    · rfl
    · exact ofPort_pread s o .byte
  | word => exact congrArg Out.half (or_high_ones _)

/-- A byte written by `PC98.ATTR.WR` at an even offset is stored as it is (R219). -/
theorem State.attrWrite_byte_of_even {o : Nat} (h : o % 2 = 0) (s : State) (v : Half) :
    s.attrWrite o .byte v = s.pwrite o .byte v :=
  if_neg (by omega)

/-- A word written by `PC98.ATTR.WR` is stored with a high byte of ones (R219). -/
theorem State.attrWrite_word (s : State) (o : Nat) (v : Half) :
    s.attrWrite o .word v = s.pwrite o .word ((v &&& 0x00FF#16) ||| 0xFF00#16) := rfl

/-! ### The region rows (R214 to R221) -/

/-- The slot of the MSW window is bits 4:2 of the address (R111). -/
theorem mswIndex_val (addr : Word) : (mswIndex addr).val = ((addr >>> 2) &&& 7#32).toNat % 8 := by
  have hslot : ((addr >>> 2) &&& 7#32).toNat = (addr >>> 2).toNat % 8 :=
    Nat.and_two_pow_sub_one_eq_mod (addr >>> 2).toNat 3
  rw [hslot, Nat.mod_mod, BitVec.toNat_ushiftRight, Nat.shiftRight_eq_div_pow]
  rfl

/-- Settles O33: both rows are their aligned meaning; the slot is bits 4:2 of the address. -/
theorem mswWindow : Obligations.MswWindow := by
  unfold Obligations.MswWindow
  intro s n addr v h
  simp only [← mswIndex_val]
  exact ⟨aligned_of h _, aligned_of h _⟩

/-- Settles O34: each row is its aligned meaning at the region offset, a plain decoder access of VRAM or none. -/
theorem textWindows : Obligations.TextWindows := by
  unfold Obligations.TextWindows
  intro s n addr v hs hb h o r
  have ho : fold addr = o := fold_eq_regionOffset addr
  have hr : Out.ofPort n (s.pread (fold addr) n) = r := by
    rw [ho]
    exact ofPort_pread s o n
  have hread : aligned n addr.toNat (.next (s.setOut (Out.ofPort n (s.pread (fold addr) n)))) =
      (.next (s.setOut r) : Result) := by
    rw [aligned_of h, hr]
  have hwrite : aligned n addr.toNat (.next ((s.pwrite (fold addr) n v).setOut .none)) =
      (.next ((s.pwrite o n v).setOut .none) : Result) := by
    rw [aligned_of h, ho]
  obtain ⟨hlow, hhigh, hrest⟩ := State.pwrite_stores hs.vramWf hb o n v
  refine ⟨hread, hread,
    ⟨_, hwrite, hwrite, hlow, hhigh, hrest, rfl, exec_keeps (i := .pc98CharWr n addr v) hwrite⟩,
    (aligned_of h _).trans ?_, aligned_of h _⟩
  cases n <;> rfl

/-- Settles O35: by the width, an even write being a plain one with ones above a word's low byte. -/
theorem attributeRam : Obligations.AttributeRam := by
  unfold Obligations.AttributeRam
  intro s n addr v hs hb h o
  have ho : fold addr = o := fold_eq_regionOffset addr
  have hparity : o % 2 = addr.toNat % 2 := regionOffset_mod_two addr
  have hwrite : exec (.pc98AttrWr n addr v) s = .next ((s.attrWrite o n v).setOut .none) := by
    rw [← ho]
    exact aligned_of h _
  refine ⟨(aligned_of h _).trans ?_, _, hwrite, rfl, exec_keeps hwrite, ?_, fun heven => ?_⟩
  · have hout := ofPort_attrRead s o n
    rw [hparity] at hout
    rw [ho]
    exact congrArg (fun out => Host.Outcome.next (s.setOut out)) hout
  · rintro rfl hodd
    have hignored : s.attrWrite o .byte v = s := if_pos (hparity.trans hodd)
    rw [hignored]
    rfl
  · cases n with
    | byte =>
      rw [State.attrWrite_byte_of_even (hparity.trans heven)]
      obtain ⟨hlow, -, hrest⟩ := State.pwrite_stores hs.vramWf hb o .byte v
      exact ⟨hlow, nofun, hrest⟩
    | word =>
      rw [State.attrWrite_word]
      obtain ⟨hlow, hhigh, hrest⟩ := State.pwrite_stores hs.vramWf hb o .word ((v &&& 0x00FF#16) ||| 0xFF00#16)
      exact ⟨hlow.trans (getLane_attrWord v false), fun _ => (hhigh rfl).trans (getLane_attrWord v true), hrest⟩

/-! ### The pass-through rows (R224, R225, R230) -/

/-- Settles O37: the rows are plain decoder accesses of VRAM at the offset plus the page-selected base. -/
theorem graphicsPassThrough : Obligations.GraphicsPassThrough := by
  unfold Obligations.GraphicsPassThrough
  intro s m3 m1 n off v hs hb h o r
  have hr : Out.ofPort n (s.passRead off.toNat n) = r := ofPort_pread s o n
  have hread : aligned n off.toNat (.next (s.setOut (Out.ofPort n (s.passRead off.toNat n)))) =
      (.next (s.setOut r) : Result) := by
    rw [aligned_of h, hr]
  have hwrite : exec (.vopPassWr m3 n off v) s = .next ((s.pwrite o n v).setOut .none) := aligned_of h _
  obtain ⟨hlow, hhigh, hrest⟩ := State.pwrite_stores hs.vramWf hb o n v
  exact ⟨hread, hread, _, hwrite, hlow, hhigh, hrest, rfl, exec_keeps hwrite⟩

/-! ### TILE_LOAD (R236) -/

/-- Settles O13: the quad is rebuilt plane by plane. -/
theorem tileLoad : Obligations.TileLoad := by
  unfold Obligations.TileLoad
  intro s p v
  refine ⟨_, rfl, ?_, fun q hq => ?_, rfl, exec_keeps (i := .tileLoad p v) rfl⟩
  · rw [State.setOut_tile, State.setTile_tile, Quad.get_ofFn, if_pos rfl]
  · rw [State.setOut_tile, State.setTile_tile, Quad.get_ofFn, if_neg hq]

end Sys2Proof.Machine
end

section
/-! The tile modes (R226 to R229, R232): the read bit by bit, the writes plane by plane. A tile-copy write is the
tile-mask write of a host value of ones, so the writes are followed once. -/

namespace Sys2Proof.Machine

/-- Plane `p` takes part in the tile modes: its bit of `ch_en` is set (R39, R226). -/
def State.participates (s : State) (p : Plane) : Bool := s.cfg.pc98.chEn.getLsbD p.val

/-! ### The tile-copy read (R226) -/

theorem foldl_or_getLsbD (c : Plane → Bool) (d : Plane → Half) (j : Nat) : ∀ (l : List Plane) (r : Half),
    (l.foldl (fun r p => if c p then r ||| d p else r) r).getLsbD j =
      (r.getLsbD j || l.any fun p => c p && (d p).getLsbD j)
  | [], r => (Bool.or_false _).symm
  | p :: l, r => by
    rw [List.foldl_cons, foldl_or_getLsbD c d j l, List.any_cons]
    cases c p with
    | false => simp
    | true => simp [Bool.or_assoc]

theorem cutTo_getLsbD {n : PortWidth} (x : Half) {j : Nat} (hj : j < 8 * portBytes n) :
    (cutTo n x).getLsbD j = x.getLsbD j := by
  cases n with
  | byte =>
    have hbyte : j < 8 := hj
    show ((getLane x false).setWidth 16).getLsbD j = _
    rw [BitVec.getLsbD_setWidth, getLane_getLsbD x false hbyte]
    simp [show j < 16 by omega]
  | word => rfl

theorem tileTerm_getLsbD {n : PortWidth} (x : Half) {j : Nat} (hj : j < 8 * portBytes n) :
    (tileTerm n x).getLsbD j = x.getLsbD j := by
  cases n with
  | byte => exact cutTo_getLsbD (n := .byte) x hj
  | word => rfl

/-- A bit of a tile-copy read is set where every participating plane agrees with its tile (R226). -/
theorem State.tileCopyRead_getLsbD_iff (s : State) (a : Nat) {n : PortWidth} {j : Nat} (hj : j < 8 * portBytes n) :
    (s.tileCopyRead a n).getLsbD j = true ↔ ∀ p : Plane, s.participates p = true →
      (s.vramAt (s.wrap (s.pa p a + j / 8))).getLsbD (j % 8) = (s.tile.get p).getLsbD j := by
  have hn := portBytes_le_two n
  have hplanes : ∀ p : Plane, p ∈ planes := by decide
  rw [State.tileCopyRead, cutTo_getLsbD _ hj, BitVec.getLsbD_not, foldl_or_getLsbD]
  simp only [BitVec.getLsbD_xor, s.pread_getLsbD _ hj, tileTerm_getLsbD _ hj, ← s.pa_eq_planeAddr]
  simp [State.participates, hplanes, show j < 16 by omega]

/-- Settles O38: the row is its aligned meaning, whose bits are the agreements. -/
theorem tileCopyRead : Obligations.TileCopyRead := by
  unfold Obligations.TileCopyRead
  exact fun s m n off h => ⟨_, aligned_of h _, fun j hj => s.tileCopyRead_getLsbD_iff (inPlane off.toNat) hj⟩

/-! ### Tile replication (R229) -/

/-- A tile register with its low byte copied into the high one. -/
def doubled (tile : Half) : Half := getLane tile false ++ getLane tile false

theorem getLane_doubled (tile : Half) (ln : Bool) : getLane (doubled tile) ln = getLane tile false :=
  (getLane_append _ _ ln).trans (ite_self _)

section
variable (s : State) (n : PortWidth) (p : Plane)

theorem State.replicate_eq_setTile : s.replicate n p = s.setTile (s.replicate n p).tile := by
  cases n <;> rfl

theorem State.replicate_tile (q : Plane) : (s.replicate n p).tile.get q =
    if q = p ∧ n = .word then doubled (s.tile.get p) else s.tile.get q := by
  cases n with
  | byte => simp [State.replicate]
  | word => simp [State.replicate, doubled]

/-- After the replication every accessed byte of the tile operand is the low tile byte. -/
theorem State.getLane_tileTerm_replicate {k : Nat} (hk : k < portBytes n) :
    getLane (tileTerm n ((s.replicate n p).tile.get p)) (decide (k = 1)) = getLane (s.tile.get p) false := by
  cases n with
  | byte =>
    obtain rfl : k = 0 := Nat.lt_one_iff.1 hk
    exact getLane_setWidth _
  | word =>
    rw [State.replicate_tile, if_pos ⟨rfl, rfl⟩]
    exact getLane_doubled _ _

end

/-! ### One plane of a tile-mode write (R228, R232) -/

/-- Where the mask has a 1 the new bit, where it has a 0 the old one (R232). -/
def blend {w : Nat} (old mask new : BitVec w) : BitVec w := (old &&& ~~~mask) ||| (mask &&& new)

theorem blend_allOnes {w : Nat} (old new : BitVec w) : blend old (BitVec.allOnes w) new = new := by
  simp [blend]

theorem getLane_blend (old mask new : Half) (ln : Bool) :
    getLane (blend old mask new) ln = blend (getLane old ln) (getLane mask ln) (getLane new ln) := by
  simp only [blend, getLane_or, getLane_and, getLane_not]

theorem getLane_allOnes (ln : Bool) : getLane (BitVec.allOnes 16) ln = BitVec.allOnes 8 := by
  cases ln <;> decide

/-- A tile-copy write is a tile-mask write of ones. -/
theorem State.tileCopyWrite_eq (s : State) (a : Nat) (n : PortWidth) :
    s.tileCopyWrite a n = s.tileMaskWrite a n (BitVec.allOnes 16) := by
  have hplane : ∀ (t : State) (p : Plane), t.tileCopyPlane a n p = t.tileMaskPlane a n (BitVec.allOnes 16) p := by
    intro t p
    exact (congrArg (fun v => if t.participates p then (t.replicate n p).pwrite _ n v else t)
      (blend_allOnes _ _)).symm
  simp only [State.tileCopyWrite, State.tileMaskWrite, hplane]

theorem State.tileMaskPlane_of_on {s : State} {p : Plane} (hon : s.participates p = true) (a : Nat) (n : PortWidth)
    (v : Half) : s.tileMaskPlane a n v p = (s.replicate n p).pwrite (s.pa p a) n
      (blend (s.pread (s.pa p a) n) v (tileTerm n ((s.replicate n p).tile.get p))) := by
  rw [State.pa_eq_planeAddr]
  refine (if_pos hon).trans ?_
  rw [State.replicate_eq_setTile]
  cases n <;> rfl

theorem State.tileMaskPlane_of_off {s : State} {p : Plane} (hoff : s.participates p = false) (a : Nat) (n : PortWidth)
    (v : Half) : s.tileMaskPlane a n v p = s :=
  if_neg (by simpa [State.participates] using hoff)

section
variable (s : State) (a : Nat) (n : PortWidth) (v : Half) (p : Plane)

theorem State.tileMaskPlane_tile (q : Plane) : (s.tileMaskPlane a n v p).tile.get q =
    if q = p ∧ s.participates p = true ∧ n = .word then doubled (s.tile.get p) else s.tile.get q := by
  cases hon : s.participates p with
  | false => simp [State.tileMaskPlane_of_off hon]
  | true =>
    rw [State.tileMaskPlane_of_on hon, State.pwrite_setVram, State.setVram_tile, State.replicate_tile]
    simp

variable {s} (hs : s.Inv)
include hs

/-- The accessed bytes of a participating plane take the low tile byte where the host value has a 1 (R232). -/
theorem State.tileMaskPlane_vramAt_add (hb : 2 ≤ s.plat.vmemBits) (hon : s.participates p = true) {k : Nat}
    (hk : k < portBytes n) : (s.tileMaskPlane a n v p).vramAt (s.wrap (s.pa p a + k)) =
      blend (s.vramAt (s.wrap (s.pa p a + k))) (getLane v (decide (k = 1))) (getLane (s.tile.get p) false) := by
  rw [State.tileMaskPlane_of_on hon, ← getLane_pread s _ hk, ← s.getLane_tileTerm_replicate n p hk, ← getLane_blend]
  generalize blend _ _ _ = stored
  rw [State.replicate_eq_setTile]
  exact State.pwrite_vramAt_add (s := s.setTile (s.replicate n p).tile) hs.vramWf hb (s.pa p a) stored hk

theorem State.tileMaskPlane_outside {x : Nat}
    (hx : s.participates p = true → s.outside (s.pa p a) (portBytes n) x) :
    (s.tileMaskPlane a n v p).vramAt x = s.vramAt x := by
  cases hon : s.participates p with
  | false => rw [State.tileMaskPlane_of_off hon]
  | true =>
    rw [State.tileMaskPlane_of_on hon, State.replicate_eq_setTile]
    exact State.pwrite_outside (s := s.setTile (s.replicate n p).tile) hs.vramWf (hx hon) _

end

/-! ### The planes together -/

/-- The bytes of a decoder access stay inside a plane's window (R210, R223). -/
theorem inPlane_add_lt {n : PortWidth} {x : Nat} (h : alignedAt n x) {k : Nat} (hk : k < portBytes n) :
    inPlane x + k < 0x8000 := by
  unfold inPlane
  obtain rfl | heven := h
  · have hk0 : k < 1 := hk
    omega
  · have hn := portBytes_le_two n
    omega

/-- The windows of two planes stay apart in a VRAM of at least 0x80000 bytes (R85). -/
theorem State.wrap_pa_ne (s : State) (h19 : 19 ≤ s.plat.vmemBits) {p q : Plane} (hpq : p ≠ q) {a k j : Nat}
    (hk : a + k < 0x8000) (hj : a + j < 0x8000) : s.wrap (s.pa p a + k) ≠ s.wrap (s.pa q a + j) := by
  have hsize : 2 ^ 19 ∣ s.plat.vmemSize := Nat.pow_dvd_pow 2 h19
  have hval : p.val ≠ q.val := fun h => hpq (Fin.ext h)
  intro heq
  have hlow : (s.pa p a + k) % 2 ^ 19 = (s.pa q a + j) % 2 ^ 19 := Nat.ModEq.of_dvd hsize heq
  simp only [State.pa_eq_planeAddr, State.planeAddr, planeOff] at hlow
  omega

/-- `t` is `s` after the tile-mask writes of the planes in `l` at in-plane offset `a`. -/
structure State.TileWritten (s : State) (a : Nat) (n : PortWidth) (v : Half) (l : List Plane) (t : State) : Prop where
  keeps : s.keepsBut [.vram, .tile] t
  inv : t.Inv
  tile : ∀ p, t.tile.get p =
    if p ∈ l ∧ s.participates p = true ∧ n = .word then doubled (s.tile.get p) else s.tile.get p
  stored : ∀ p ∈ l, s.participates p = true → ∀ k < portBytes n, t.vramAt (s.wrap (s.pa p a + k)) =
    blend (s.vramAt (s.wrap (s.pa p a + k))) (getLane v (decide (k = 1))) (getLane (s.tile.get p) false)
  others : ∀ x, (∀ p ∈ l, s.participates p = true → s.outside (s.pa p a) (portBytes n) x) → t.vramAt x = s.vramAt x

section
variable {s t : State} {a : Nat} {n : PortWidth} {v : Half} {l : List Plane}

theorem State.TileWritten.nil (hs : s.Inv) : s.TileWritten a n v [] s where
  keeps := s.keepsBut_refl _
  inv := hs
  tile p := by simp
  stored p hp := by simp at hp
  others x _ := rfl

/-- The write of one more plane: the planes before it are apart from it, so its tile and bytes are still those of
`s`. -/
theorem State.TileWritten.cons (ht : s.TileWritten a n v l t) (h19 : 19 ≤ s.plat.vmemBits)
    (hfit : ∀ k < portBytes n, a + k < 0x8000) {p : Plane} (hp : p ∉ l) :
    s.TileWritten a n v (p :: l) (t.tileMaskPlane a n v p) := by
  have hplat : t.plat = s.plat := ht.keeps .plat (by decide)
  have hcfg : t.cfg = s.cfg := ht.keeps .cfg (by decide)
  have hwrap : t.wrap = s.wrap := funext fun o => congrArg (fun c : Platform => o % c.vmemSize) hplat
  have hpa : ∀ q, t.pa q a = s.pa q a := fun q => by simp only [State.pa, hplat, hcfg]
  have hon : t.participates p = s.participates p := by simp only [State.participates, hcfg]
  have hb : 2 ≤ t.plat.vmemBits := by rw [hplat]; omega
  have htile : t.tile.get p = s.tile.get p := (ht.tile p).trans (if_neg fun h => hp h.1)
  refine ⟨ht.keeps.trans (t.tileMaskPlane_keeps a n v p), ht.inv.tileMaskPlane a n v p, fun q => ?_,
    fun q hq hqon k hk => ?_, fun x hx => ?_⟩
  · rw [State.tileMaskPlane_tile, hon, htile, ht.tile q]
    by_cases hqp : q = p
    · subst hqp
      simp [hp]
    · simp [hqp]
  · by_cases hqp : q = p
    · subst hqp
      have hbefore : t.vramAt (s.wrap (s.pa q a + k)) = s.vramAt (s.wrap (s.pa q a + k)) :=
        ht.others _ fun r hr _ j hj => s.wrap_pa_ne h19 (ne_of_mem_of_not_mem hr hp).symm (hfit k hk) (hfit j hj)
      have hstored := State.tileMaskPlane_vramAt_add a n v q ht.inv hb (hon.trans hqon) hk
      rwa [hwrap, hpa, hbefore, htile] at hstored
    · have hql : q ∈ l := (List.mem_cons.1 hq).resolve_left hqp
      refine (State.tileMaskPlane_outside a n v p ht.inv fun _ j hj => ?_).trans (ht.stored q hql hqon k hk)
      rw [hwrap, hpa]
      exact s.wrap_pa_ne h19 hqp (hfit k hk) (hfit j hj)
  · refine (State.tileMaskPlane_outside a n v p ht.inv fun h j hj => ?_).trans
      (ht.others x fun q hq => hx q (List.mem_cons_of_mem p hq))
    rw [hwrap, hpa]
    exact hx p List.mem_cons_self (hon.symm.trans h) j hj

theorem State.tileMaskWrite_written (hs : s.Inv) (h19 : 19 ≤ s.plat.vmemBits)
    (hfit : ∀ k < portBytes n, a + k < 0x8000) (v : Half) :
    s.TileWritten a n v [3, 2, 1, 0] (s.tileMaskWrite a n v) :=
  ((((State.TileWritten.nil hs).cons h19 hfit (by decide)).cons h19 hfit (by decide)).cons h19 hfit
    (by decide)).cons h19 hfit (by decide)

end

/-- Settles O39: plane by plane; the copy write is the mask write of ones. -/
theorem tileWrites : Obligations.TileWrites := by
  unfold Obligations.TileWrites
  intro s m n off v hs h19 h on o low
  have hfit : ∀ k < portBytes n, inPlane off.toNat + k < 0x8000 := fun k => inPlane_add_lt h
  have hcopy : exec (.vopTileCopyWr m n off v) s =
      .next ((s.tileMaskWrite (inPlane off.toNat) n (BitVec.allOnes 16)).setOut .none) := by
    rw [← State.tileCopyWrite_eq]
    exact aligned_of h _
  have hmask : exec (.vopTileMaskWr m n off v) s = .next ((s.tileMaskWrite (inPlane off.toNat) n v).setOut .none) :=
    aligned_of h _
  have ht := State.tileMaskWrite_written hs h19 hfit (BitVec.allOnes 16)
  have hu := State.tileMaskWrite_written hs h19 hfit v
  have hall : ∀ p : Plane, p ∈ ([3, 2, 1, 0] : List Plane) := by decide
  refine ⟨_, _, hcopy, hmask, fun p k hon hk => ⟨?_, hu.stored p (hall p) hon k hk⟩,
    fun x hx => ⟨ht.others x fun p _ => hx p, hu.others x fun p _ => hx p⟩, fun p => (ht.tile p).trans ?_,
    Quad.ext_get fun p => (hu.tile p).trans (ht.tile p).symm, rfl, rfl, exec_keeps hcopy, exec_keeps hmask⟩
  · refine (ht.stored p (hall p) hon k hk).trans ?_
    rw [getLane_allOnes, blend_allOnes]
  · refine if_congr ?_ rfl rfl
    simp [hall p, on, State.participates]

end Sys2Proof.Machine
end

section
/-! The Shifter's operations as updates of the State (R250 to R266): what each does to registers, buffer, mask and data
lanes, said once. -/

namespace Sys2Proof.Machine

/-! ### Lanes and cursors (R251, R252) -/

theorem half_ext_lanes {x y : Half} (h : ∀ ln, getLane x ln = getLane y ln) : x = y :=
  BitVec.eq_of_getLsbD_eq fun j hj => by rw [getLsbD_eq_getLane x hj, getLsbD_eq_getLane y hj, h]

theorem State.getLane_setMaskLane (s : State) (ln k : Bool) (m : Byte) :
    getLane (s.setMaskLane ln m).srcMask k = if k = ln then m else getLane s.srcMask k := getLane_setLane _ _ _ _

theorem State.getLane_setSrcLane (s : State) (ln k : Bool) (f : Plane → Byte) (p : Plane) :
    getLane ((s.setSrcLane ln f).egcSrc.get p) k = if k = ln then f p else getLane (s.egcSrc.get p) k := by
  rw [State.setSrcLane, State.setEgcSrc_egcSrc, Quad.get_ofFn, getLane_setLane]

theorem advance_eq_moved (dec : Bool) {n : Nat} (hn : n ≤ 512) (cursor : Nat) :
    advance dec n cursor = moved dec n cursor := by
  cases dec
  · rfl
  · exact congrArg (· % 512) (Nat.add_sub_assoc hn cursor).symm

/-! ### Staging (R256, R260) -/

/-- The chunks of `l` stored one after the other, each at its offset from `c`. -/
def State.storeAll (s : State) (c : Nat) (l : List (Nat × Byte)) : State :=
  l.foldl (fun t x => t.bufPut (c + x.1) x.2) s

/-- A byte of the buffer that no chunk names keeps its value. -/
theorem State.storeAll_read_other {s : State} (h : s.Inv) {c k : Nat} {l : List (Nat × Byte)}
    (hk : ∀ x ∈ l, k ≠ (c + x.1) % 512) : (s.storeAll c l).buf.read k = s.buf.read k := by
  induction l generalizing s with
  | nil => rfl
  | cons x l ih =>
    obtain ⟨hx, hl⟩ := List.forall_mem_cons.1 hk
    exact (ih (h.bufPut _ _) hl).trans ((State.bufPut_read h.bufWf _ _ _).trans (if_neg hx))

/-- Where the offsets name different bytes, each chunk is found at its place. -/
theorem State.storeAll_read_mem {s : State} (h : s.Inv) {c : Nat} {x : Nat × Byte} {l : List (Nat × Byte)}
    (hd : l.Pairwise fun y z => (c + y.1) % 512 ≠ (c + z.1) % 512) (hx : x ∈ l) :
    (s.storeAll c l).buf.read ((c + x.1) % 512) = x.2 := by
  induction l generalizing s with
  | nil => cases hx
  | cons y l ih =>
    obtain ⟨hy, hl⟩ := List.pairwise_cons.1 hd
    obtain rfl | hx := List.mem_cons.1 hx
    · exact (State.storeAll_read_other (h.bufPut _ _) hy).trans
        ((State.bufPut_read h.bufWf _ _ _).trans (if_pos rfl))
    · exact ih (h.bufPut _ _) hl hx

/-- Different offsets below the size of the buffer name different bytes. -/
theorem pairwise_slots {l : List (Nat × Byte)} (c : Nat) (hlt : ∀ x ∈ l, x.1 < 512)
    (hne : (l.map Prod.fst).Nodup) :
    l.Pairwise fun y z => (c + y.1) % 512 ≠ (c + z.1) % 512 := by
  refine (List.pairwise_map.1 hne).imp_of_mem fun hy hz hyz => ?_
  have := hlt _ hy
  have := hlt _ hz
  omega

/-- The chunks of a byte input: plane `p` at offset `4p`. -/
def chunks8 (q : Quad) : List (Nat × Byte) := planes.map fun p => (4 * p.val, getLane (q.get p) false)

/-- The chunks of a word input: plane `p` at offset `4p`, low byte first. -/
def chunks16 (q : Quad) : List (Nat × Byte) :=
  planes.flatMap fun p => [(4 * p.val, getLane (q.get p) false), (4 * p.val + 1, getLane (q.get p) true)]

theorem mem_planes (p : Plane) : p ∈ planes := by revert p; decide

theorem chunks8_slots (c : Nat) (q : Quad) :
    (chunks8 q).Pairwise fun y z => (c + y.1) % 512 ≠ (c + z.1) % 512 := by
  refine pairwise_slots c (fun x hx => ?_) (show [0, 4, 8, 12].Nodup by decide)
  obtain ⟨p, -, rfl⟩ := List.mem_map.1 hx
  dsimp only
  omega

theorem chunks16_slots (c : Nat) (q : Quad) :
    (chunks16 q).Pairwise fun y z => (c + y.1) % 512 ≠ (c + z.1) % 512 := by
  refine pairwise_slots c (fun x hx => ?_) (show [0, 1, 4, 5, 8, 9, 12, 13].Nodup by decide)
  obtain ⟨p, -, hx⟩ := List.mem_flatMap.1 hx
  obtain rfl | rfl : x = _ ∨ x = _ := by simpa using hx
  · dsimp only
    omega
  · dsimp only
    omega

theorem State.stage8_eq (s : State) (q : Quad) : s.stage8 q = s.storeAll s.sh.bufi (chunks8 q) := rfl

/-- The address of plane 0's low byte in a word input (R260): descending, the odd byte lands on the cursor. -/
def Shifter.wordBase (x : Shifter) : Nat := if x.dec then x.bufi + 511 else x.bufi

theorem State.stage16_eq (s : State) (q : Quad) : s.stage16 q = s.storeAll s.sh.wordBase (chunks16 q) := by
  rw [State.stage16, Shifter.wordBase]
  cases s.sh.dec <;> rfl

theorem State.stage8_read {s : State} (h : s.Inv) (q : Quad) (p : Plane) :
    (s.stage8 q).buf.read ((s.sh.bufi + 4 * p.val) % 512) = getLane (q.get p) false :=
  State.storeAll_read_mem h (chunks8_slots _ q) (List.mem_map_of_mem (mem_planes p))

theorem State.stage8_read_other {s : State} (h : s.Inv) (q : Quad) {k : Nat}
    (hk : ∀ p : Plane, k ≠ (s.sh.bufi + 4 * p.val) % 512) : (s.stage8 q).buf.read k = s.buf.read k := by
  rw [State.stage8_eq]
  refine State.storeAll_read_other h fun x hx => ?_
  obtain ⟨p, -, rfl⟩ := List.mem_map.1 hx
  exact hk p

theorem State.stage16_read {s : State} (h : s.Inv) (q : Quad) (p : Plane) (ln : Bool) :
    (s.stage16 q).buf.read ((s.sh.wordBase + 4 * p.val + ln.toNat) % 512) = getLane (q.get p) ln := by
  rw [State.stage16_eq, Nat.add_assoc]
  refine State.storeAll_read_mem (x := (4 * p.val + ln.toNat, getLane (q.get p) ln)) h (chunks16_slots _ q) ?_
  refine List.mem_flatMap.2 ⟨p, mem_planes p, ?_⟩
  cases ln <;> simp

theorem State.stage16_read_other {s : State} (h : s.Inv) (q : Quad) {k : Nat}
    (hk : ∀ p : Plane, k ≠ (s.sh.wordBase + 4 * p.val) % 512 ∧ k ≠ (s.sh.wordBase + 4 * p.val + 1) % 512) :
    (s.stage16 q).buf.read k = s.buf.read k := by
  rw [State.stage16_eq]
  refine State.storeAll_read_other h fun x hx => ?_
  obtain ⟨p, -, hx⟩ := List.mem_flatMap.1 hx
  obtain rfl | rfl : x = _ ∨ x = _ := by simpa using hx
  · exact (hk p).1
  · exact (hk p).2

/-! ### The inputs (R256, R260) -/

/-- The registers after a byte input. -/
def Shifter.afterIn8 (x : Shifter) : Shifter :=
  if x.load ≤ 16 then
    { x with
      bufi := moved x.dec 1 x.bufi
      load := if 8 ≤ x.srcbit then x.load else x.load + (8 - x.srcbit)
      srcbit := x.srcbit - 8 }
  else x

/-- The registers after a word input. -/
def Shifter.afterIn16 (x : Shifter) : Shifter :=
  if x.load ≤ 16 then
    { x with
      bufi := moved x.dec 2 x.bufi
      bufo := if 8 ≤ x.srcbit then moved x.dec 1 x.bufo else x.bufo
      load := x.load + (16 - x.srcbit)
      srcbit := 0 }
  else x

theorem State.biAdv_eq (s : State) {n : Nat} (hn : n ≤ 512) :
    s.biAdv n = s.setSh { s.sh with bufi := moved s.sh.dec n s.sh.bufi } := by
  rw [State.biAdv, advance_eq_moved _ hn]

theorem State.boAdv_eq (s : State) {n : Nat} (hn : n ≤ 512) :
    s.boAdv n = s.setSh { s.sh with bufo := moved s.sh.dec n s.sh.bufo } := by
  rw [State.boAdv, advance_eq_moved _ hn]

theorem State.shiftIn8_eq (s : State) (q : Quad) (odd : Bool) :
    s.shiftIn8 q odd = ((s.stage8 q).setSh s.sh.afterIn8).setMaskLane odd 0xFF#8 := by
  have hsh : (s.stage8 q).sh = s.sh := s.stage8_keeps q .sh (by decide)
  rw [State.shiftIn8, ← hsh]
  clear hsh
  generalize s.stage8 q = t
  refine congrArg (fun u : State => u.setMaskLane odd 0xFF#8) ?_
  rw [t.biAdv_eq (by decide), Shifter.afterIn8]
  by_cases hload : t.sh.load ≤ 16
  · rw [if_pos hload, if_pos hload]
    by_cases hsrc : 8 ≤ t.sh.srcbit
    · simp [hsrc, State.setSh]
    · have hzero : t.sh.srcbit - 8 = 0 := by omega
      simp [hsrc, hzero, State.setSh]
  · rw [if_neg hload, if_neg hload]
    rfl

theorem State.shiftIn16_eq (s : State) (q : Quad) :
    s.shiftIn16 q = ((s.stage16 q).setSh s.sh.afterIn16).setSrcMask 0xFFFF#16 := by
  have hsh : (s.stage16 q).sh = s.sh := s.stage16_keeps q .sh (by decide)
  rw [State.shiftIn16, ← hsh]
  clear hsh
  generalize s.stage16 q = t
  refine congrArg (fun u : State => u.setSrcMask 0xFFFF#16) ?_
  rw [t.biAdv_eq (by decide), Shifter.afterIn16]
  by_cases hload : t.sh.load ≤ 16
  · rw [if_pos hload, if_pos hload]
    by_cases hsrc : 8 ≤ t.sh.srcbit <;> simp [hsrc, State.boAdv_eq, State.setSh]
  · rw [if_neg hload, if_neg hload]
    rfl

@[simp] theorem State.shiftIn8_buf (s : State) (q : Quad) (odd : Bool) :
    (s.shiftIn8 q odd).buf = (s.stage8 q).buf := by rw [State.shiftIn8_eq]; rfl

@[simp] theorem State.shiftIn8_sh (s : State) (q : Quad) (odd : Bool) :
    (s.shiftIn8 q odd).sh = s.sh.afterIn8 := by rw [State.shiftIn8_eq]; rfl

theorem State.shiftIn8_mask (s : State) (q : Quad) (odd k : Bool) :
    getLane (s.shiftIn8 q odd).srcMask k = if k = odd then 0xFF#8 else getLane s.srcMask k := by
  rw [State.shiftIn8_eq, State.getLane_setMaskLane, State.setSh_srcMask, s.stage8_keeps q .srcMask (by decide)]

@[simp] theorem State.shiftIn16_buf (s : State) (q : Quad) : (s.shiftIn16 q).buf = (s.stage16 q).buf := by
  rw [State.shiftIn16_eq, State.setSrcMask_buf, State.setSh_buf]

@[simp] theorem State.shiftIn16_sh (s : State) (q : Quad) : (s.shiftIn16 q).sh = s.sh.afterIn16 := by
  rw [State.shiftIn16_eq, State.setSrcMask_sh, State.setSh_sh]

@[simp] theorem State.shiftIn16_srcMask (s : State) (q : Quad) : (s.shiftIn16 q).srcMask = 0xFFFF#16 := by
  rw [State.shiftIn16_eq, State.setSrcMask_srcMask]

/-! ### One output lane (R262) -/

/-- The first byte of a transfer whose destination phase lies behind its source phase: one buffer byte contributes. -/
def Shifter.firstByte (x : Shifter) : Bool := decide (x.oSrcbit < x.oDstbit ∧ x.dstbit ≠ 0)

/-- The registers after a lane is produced. -/
def Shifter.afterLane (x : Shifter) : Shifter :=
  { x with
    remain := x.remain - (8 - x.dstbit)
    dstbit := 0
    bufo := if x.firstByte then x.bufo else moved x.dec 1 x.bufo }

/-- Two adjacent buffer bytes combined, `k` bytes past the output cursor (R262, `TWO_BYTE`). -/
def State.combined (s : State) (k : Nat) : Byte :=
  if s.sh.dec then
    s.bufGet (moved true 1 s.sh.bufo + (k + 1)) >>> s.sh.shl ||| s.bufGet (moved true 1 s.sh.bufo + k) <<< s.sh.shr
  else s.bufGet (s.sh.bufo + k) <<< s.sh.shl ||| s.bufGet (s.sh.bufo + (k + 1)) >>> s.sh.shr

/-- The byte a lane of plane `p` receives. -/
def State.laneByte (s : State) (p : Plane) : Byte :=
  if s.sh.oSrcbit = s.sh.oDstbit then s.bo (4 * p.val)
  else if s.sh.firstByte then
    if s.sh.dec then s.bo (4 * p.val) <<< s.sh.shr else s.bo (4 * p.val) >>> s.sh.shr
  else s.combined (4 * p.val)

@[simp] theorem State.bufGet_setSh (s : State) (x : Shifter) (i : Nat) : (s.setSh x).bufGet i = s.bufGet i := rfl

theorem State.setSh_setSrcLane (s : State) (x : Shifter) (ln : Bool) (f : Plane → Byte) :
    (s.setSh x).setSrcLane ln f = (s.setSrcLane ln f).setSh x := rfl

theorem State.combined_descending {s : State} (h : s.sh.dec = true) :
    s.combined = fun k => s.bufGet (moved true 1 s.sh.bufo + (k + 1)) >>> s.sh.shl |||
      s.bufGet (moved true 1 s.sh.bufo + k) <<< s.sh.shr := funext fun _ => if_pos h

theorem State.combined_ascending {s : State} (h : s.sh.dec = false) :
    s.combined = fun k => s.bufGet (s.sh.bufo + k) <<< s.sh.shl ||| s.bufGet (s.sh.bufo + (k + 1)) >>> s.sh.shr :=
  funext fun _ => if_neg (Bool.not_eq_true _ ▸ h)

/-- `TWO_BYTE` combines for both directions; the cursor moves with the direction. -/
theorem State.twoByte_eq (s : State) (ln : Bool) : s.twoByte ln =
    (s.setSrcLane ln fun p => s.combined (4 * p.val)).setSh { s.sh with bufo := moved s.sh.dec 1 s.sh.bufo } := by
  rw [State.twoByte]
  split
  next h =>
    rw [s.boAdv_eq (by decide), State.combined_descending h, h]
    simp only [State.bo, State.setSh_sh, State.bufGet_setSh]
    exact s.setSh_setSrcLane _ ln _
  next h =>
    rw [State.boAdv_eq _ (by decide), State.combined_ascending (Bool.eq_false_of_not_eq_true h)]
    rfl

theorem State.laneByte_copy {s : State} (h : s.sh.oSrcbit = s.sh.oDstbit) :
    s.laneByte = fun p => s.bo (4 * p.val) := funext fun _ => if_pos h

theorem State.laneByte_first {s : State} (h : s.sh.oSrcbit < s.sh.oDstbit) (hd : s.sh.dstbit ≠ 0) :
    s.laneByte = fun p => if s.sh.dec then s.bo (4 * p.val) <<< s.sh.shr else s.bo (4 * p.val) >>> s.sh.shr :=
  funext fun _ => (if_neg h.ne).trans (if_pos (decide_eq_true ⟨h, hd⟩))

theorem State.laneByte_combined {s : State} (h : s.sh.oSrcbit ≠ s.sh.oDstbit) (hf : s.sh.firstByte = false) :
    s.laneByte = fun p => s.combined (4 * p.val) :=
  funext fun _ => (if_neg h).trans (if_neg (by simp [hf]))

/-- The data part of a lane in one update. -/
theorem State.outData_eq (s : State) (ln : Bool) :
    s.outData ln = (s.setSrcLane ln s.laneByte).setSh { s.sh with
      dstbit := 0
      bufo := if s.sh.firstByte then s.sh.bufo else moved s.sh.dec 1 s.sh.bufo } := by
  rw [State.outData]
  obtain hlt | heq | hgt := Nat.lt_trichotomy s.sh.oSrcbit s.sh.oDstbit
  · rw [if_pos hlt]
    by_cases hd : s.sh.dstbit = 0
    · have hf : s.sh.firstByte = false := by simp [Shifter.firstByte, hd]
      rw [if_neg (not_not.2 hd), State.twoByte_eq, State.laneByte_combined hlt.ne hf, hf, ← hd]
      rfl
    · have hf : s.sh.firstByte = true := by simp [Shifter.firstByte, hd, hlt]
      rw [if_pos hd, State.laneByte_first hlt hd, hf]
      rfl
  · have hf : s.sh.firstByte = false := by simp [Shifter.firstByte, heq]
    rw [if_neg heq.not_lt, if_neg heq.not_gt, State.laneByte_copy heq, hf, State.boAdv_eq _ (by decide)]
    rfl
  · have hf : s.sh.firstByte = false := by simp [Shifter.firstByte, hgt.le]
    rw [if_neg hgt.not_gt, if_pos hgt, State.twoByte_eq, State.laneByte_combined hgt.ne' hf, hf]
    rfl

theorem State.outLane_skip {s : State} (h : 8 ≤ s.sh.dstbit) (ln : Bool) :
    s.outLane ln = (s.setSh { s.sh with dstbit := s.sh.dstbit - 8 }).setMaskLane ln 0x00#8 := if_pos h

/-- A lane past the destination phase in one update. -/
theorem State.outLane_eq {s : State} (h : s.sh.dstbit < 8) (ln : Bool) : s.outLane ln =
    ((s.setMaskLane ln (dstbitMask s.sh)).setSrcLane ln s.laneByte).setSh s.sh.afterLane := by
  have hremain : s.sh.remain - min s.sh.remain (if 0 < s.sh.dstbit then 8 - s.sh.dstbit else 8) =
      s.sh.remain - (8 - s.sh.dstbit) := by split <;> omega
  have hdata : s.outLane ln = ((s.setMaskLane ln (dstbitMask s.sh)).setSh
      { s.sh with remain := s.sh.remain - (8 - s.sh.dstbit) }).outData ln :=
    (if_neg (Nat.not_le.2 h)).trans
      (congrArg (fun r => State.outData (State.setSh _ { s.sh with remain := r }) ln) hremain)
  rw [hdata, State.outData_eq]
  rfl

/-! ### Outputs (R262, R266) -/

/-- The end of an output: an exhausted transfer reinitialises the Shifter. -/
def State.again (s : State) : State := if s.sh.remain = 0 then s.reinit else s

theorem State.shiftOut8_defer {s : State} (h : (s.sh.load : Int) < 8 - (s.sh.dstbit : Int)) (ln : Bool) :
    s.shiftOut8 ln false = s.setMaskLane ln 0x00#8 := by simp [State.shiftOut8, h]

theorem State.shiftOut8_staged {s : State} {k : Nat} (h : (k : Int) = (s.sh.load : Int) - (8 - (s.sh.dstbit : Int)))
    (ln : Bool) : s.shiftOut8 ln false = if s.sh.dstbit < 8 then ((s.setSh { s.sh with load := k }).outLane ln).again
      else (s.setSh { s.sh with load := k }).outLane ln := by
  have hstaged : ¬(s.sh.load : Int) < 8 - (s.sh.dstbit : Int) := by omega
  have hk : ((s.sh.load : Int) - (8 - (s.sh.dstbit : Int))).toNat = k := by omega
  rw [State.shiftOut8, if_neg Bool.false_ne_true, if_neg hstaged, hk]
  by_cases h8 : s.sh.dstbit < 8
  · simp [h8, State.again]
  · simp [h8, Nat.not_lt.1 h8]

theorem State.shiftOut16_defer {s : State} (h : s.sh.load < 16 - s.sh.dstbit) :
    s.shiftOut16 = s.setSrcMask 0x0000#16 := if_pos h

theorem State.shiftOut16_staged {s : State} (h : 16 - s.sh.dstbit ≤ s.sh.load) : s.shiftOut16 =
    (((s.setSh { s.sh with load := s.sh.load - (16 - s.sh.dstbit) }).outLane s.sh.dec).outLane (!s.sh.dec)).again := by
  refine (if_neg (Nat.not_lt.2 h)).trans (congrArg State.again ?_)
  cases hdec : s.sh.dec with
  | true => exact if_pos hdec
  | false => exact if_neg (Bool.eq_false_iff.1 hdec)

end Sys2Proof.Machine
end

section
/-! What the Shifter's rows answer (R250 to R274). -/

namespace Sys2Proof.Machine

/-! ### The rows -/

theorem exec_shReinit (s : State) : exec .shReinit s = .next (s.reinit.setOut .none) := rfl

theorem exec_shIn8 (q0 q1 q2 q3 : Byte) (odd : Bool) (s : State) : exec (.shIn8 q0 q1 q2 q3 odd) s =
    .next ((s.shiftIn8 ⟨q0.setWidth 16, q1.setWidth 16, q2.setWidth 16, q3.setWidth 16⟩ odd).setOut .none) := rfl

theorem exec_shIn16 (q0 q1 q2 q3 : Half) (s : State) :
    exec (.shIn16 q0 q1 q2 q3) s = .next ((s.shiftIn16 ⟨q0, q1, q2, q3⟩).setOut .none) := rfl

theorem exec_shOut8 (ln rec : Bool) (s : State) :
    exec (.shOut8 ln rec) s = .next ((s.shiftOut8 ln rec).setOut .none) := rfl

theorem exec_shOut8_rec (ln : Bool) (s : State) :
    exec (.shOut8 ln true) s = .next ((s.outLane ln).setOut .none) := rfl

theorem exec_shOut16 (s : State) : exec .shOut16 s = .next (s.shiftOut16.setOut .none) := rfl

theorem exec_shDmask (s : State) : exec .shDmask s = .next (s.setOut (.byte (dstbitMask s.sh))) := rfl

/-! ### reinit (R250) -/

theorem shiftAmounts_of_lt {sb db : Nat} (h : sb < db) : shiftAmounts sb db = (8 - (db - sb), db - sb) := if_pos h

theorem shiftAmounts_of_gt {sb db : Nat} (h : db < sb) : shiftAmounts sb db = (sb - db, 8 - (sb - db)) :=
  (if_neg h.not_gt).trans (if_pos h)

theorem shiftAmounts_self (b : Nat) : shiftAmounts b b = (0, 0) :=
  (if_neg (lt_irrefl b)).trans (if_neg (lt_irrefl b))

/-- Settles O49: the registers are read off `Shifter.fresh`; the shift amounts by the sign of the phase delta. -/
theorem reinit : Obligations.Reinit := by
  unfold Obligations.Reinit
  intro s c sb db
  have hamounts : (Shifter.fresh c).shl = (shiftAmounts sb db).1 ∧ (Shifter.fresh c).shr = (shiftAmounts sb db).2 :=
    ⟨rfl, rfl⟩
  refine ⟨_, exec_shReinit s, rfl, rfl, exec_keeps (exec_shReinit s), rfl, rfl, rfl, rfl, rfl, rfl, fun h => ?_,
    fun h => ?_, fun h => ?_, rfl, rfl, rfl⟩
  · rw [shiftAmounts_of_lt h] at hamounts
    obtain ⟨hl, hr⟩ := hamounts
    exact ⟨hr, hl.trans (congrArg (8 - ·) hr.symm)⟩
  · rw [shiftAmounts_of_gt h] at hamounts
    obtain ⟨hl, hr⟩ := hamounts
    exact ⟨hl, hr.trans (congrArg (8 - ·) hl.symm)⟩
  · rw [h, shiftAmounts_self] at hamounts
    exact hamounts

/-! ### The inputs (R256, R260) -/

/-- The quad of the planes' byte chunks, each in lane 0. -/
theorem getLane_get_setWidth (b : Plane → Byte) (p : Plane) :
    getLane (Quad.get ⟨(b 0).setWidth 16, (b 1).setWidth 16, (b 2).setWidth 16, (b 3).setWidth 16⟩ p) false = b p :=
  (congrArg (getLane · false) (Quad.get_ofFn (fun r => (b r).setWidth 16) p)).trans (getLane_setWidth _)

/-- Settles O50: the chunks are found where they were staged, and nothing else of the buffer changed. -/
theorem shiftInputs : Obligations.ShiftInputs := by
  unfold Obligations.ShiftInputs
  intro s b q odd h x c
  constructor
  · refine ⟨_, exec_shIn8 _ _ _ _ odd s, rfl, exec_keeps (exec_shIn8 _ _ _ _ odd s), ?_⟩
    simp only [State.setOut_buf, State.setOut_srcMask, State.setOut_sh, State.shiftIn8_buf, State.shiftIn8_sh,
      State.shiftIn8_mask]
    exact ⟨fun p => (State.stage8_read h _ p).trans (getLane_get_setWidth b p),
      fun k hk => State.stage8_read_other h _ hk, if_pos trivial, if_neg (Bool.not_ne_self odd), rfl⟩
  · refine ⟨_, exec_shIn16 _ _ _ _ s, rfl, exec_keeps (exec_shIn16 _ _ _ _ s), ?_⟩
    simp only [State.setOut_buf, State.setOut_srcMask, State.setOut_sh, State.shiftIn16_buf, State.shiftIn16_sh,
      State.shiftIn16_srcMask]
    exact ⟨fun p => ⟨(State.stage16_read h _ p false).trans (congrArg (getLane · false) (Quad.get_ofFn q p)),
        (State.stage16_read h _ p true).trans (congrArg (getLane · true) (Quad.get_ofFn q p))⟩,
      fun k hk => State.stage16_read_other h _ hk, trivial, rfl⟩

/-! ### The boundary mask (R261) -/

/-- One formula for every `remain`: from 8 on the truncated difference is 0. -/
theorem dstbitMask_eq (x : Shifter) : dstbitMask x =
    if x.dec then (BitVec.allOnes 8 >>> (8 - x.remain)) <<< x.dstbit
    else (BitVec.allOnes 8 <<< (8 - x.remain)) >>> x.dstbit := by
  by_cases h : 8 ≤ x.remain
  · simp [dstbitMask, h, Nat.sub_eq_zero_of_le h]
  · cases hdec : x.dec <;> simp [dstbitMask, h, hdec]

theorem dstbitMask_getLsbD {x : Shifter} {j : Nat} (hj : j < 8) : (dstbitMask x).getLsbD j = true ↔
    if x.dec then x.dstbit ≤ j ∧ j - x.dstbit < x.remain
    else j + x.dstbit < 8 ∧ 7 - (j + x.dstbit) < x.remain := by
  rw [dstbitMask_eq]
  split
  · rw [BitVec.getLsbD_shiftLeft, BitVec.getLsbD_ushiftRight, BitVec.getLsbD_allOnes]
    simp only [Bool.and_eq_true, Bool.not_eq_true', decide_eq_true_eq, decide_eq_false_iff_not]
    omega
  · rw [BitVec.getLsbD_ushiftRight, BitVec.getLsbD_shiftLeft, BitVec.getLsbD_allOnes]
    simp only [Bool.and_eq_true, Bool.not_eq_true', decide_eq_true_eq, decide_eq_false_iff_not]
    omega

/-- Settles O51, by the bits of the one formula. -/
theorem boundaryMask : Obligations.BoundaryMask := by
  unfold Obligations.BoundaryMask
  exact fun s _ => ⟨_, exec_shDmask s, fun _ hj => dstbitMask_getLsbD hj⟩

end Sys2Proof.Machine
end

section
/-! What the Shifter's output rows answer (R262, R266), and a word passed through unchanged (R271, R272, R274). -/

namespace Sys2Proof.Machine

/-! ### One lane (R262) -/

/-- A produced lane leaves the other lane of the mask. -/
theorem State.outLane_mask {s : State} (h : s.sh.dstbit < 8) (ln k : Bool) :
    getLane (s.outLane ln).srcMask k = if k = ln then dstbitMask s.sh else getLane s.srcMask k := by
  rw [State.outLane_eq h]
  exact s.getLane_setMaskLane ln k _

/-- A produced lane leaves the other lane of the data. -/
theorem State.outLane_src {s : State} (h : s.sh.dstbit < 8) (ln k : Bool) (p : Plane) :
    getLane ((s.outLane ln).egcSrc.get p) k = if k = ln then s.laneByte p else getLane (s.egcSrc.get p) k := by
  rw [State.outLane_eq h]
  exact State.getLane_setSrcLane _ ln k _ p

theorem State.outLane_sh {s : State} (h : s.sh.dstbit < 8) (ln : Bool) : (s.outLane ln).sh = s.sh.afterLane := by
  rw [State.outLane_eq h, State.setSh_sh]

theorem Shifter.afterLane_of_first {x : Shifter} (h : x.firstByte = true) :
    x.afterLane = { x with remain := x.remain - (8 - x.dstbit), dstbit := 0 } := by
  rw [Shifter.afterLane, if_pos h]

theorem Shifter.afterLane_of_later {x : Shifter} (h : x.firstByte = false) :
    x.afterLane =
      { x with remain := x.remain - (8 - x.dstbit), dstbit := 0, bufo := moved x.dec 1 x.bufo } := by
  rw [Shifter.afterLane, if_neg (Bool.eq_false_iff.1 h)]

/-- Settles O52: a skipped lane, and a produced one by its three sources of data. -/
theorem shiftOutLane : Obligations.ShiftOutLane := by
  unfold Obligations.ShiftOutLane
  intro s ln _ x at'
  refine ⟨_, exec_shOut8_rec ln s, rfl, (exec_keeps (exec_shOut8_rec ln s)).mono (by simp [Instr.writes]), ?_⟩
  obtain hskip | hd : 8 ≤ x.dstbit ∨ x.dstbit < 8 := (Nat.lt_or_ge _ _).symm
  · rw [State.outLane_skip hskip]
    exact ⟨(State.getLane_setMaskLane _ ln (!ln) _).trans (if_neg (Bool.not_ne_self ln)), fun _ => rfl,
      fun _ => ⟨rfl, (State.getLane_setMaskLane _ ln ln _).trans (if_pos rfl), rfl⟩,
      fun h => absurd hskip (Nat.not_le.2 h)⟩
  · have hmask := State.outLane_mask hd ln
    have hsrc := State.outLane_src hd ln
    have hsh : (s.outLane ln).sh = x.afterLane := State.outLane_sh hd ln
    refine ⟨(hmask (!ln)).trans (if_neg (Bool.not_ne_self ln)),
      fun p => (hsrc (!ln) p).trans (if_neg (Bool.not_ne_self ln)), fun h => absurd h (Nat.not_le.2 hd),
      fun _ => ⟨⟨_, exec_shDmask s, (hmask ln).trans (if_pos rfl)⟩, ?_⟩⟩
    have hdata (p : Plane) : getLane ((s.outLane ln).egcSrc.get p) ln = s.laneByte p := (hsrc ln p).trans (if_pos rfl)
    by_cases heq : x.oSrcbit = x.oDstbit
    · have hf : x.firstByte = false := by simp [Shifter.firstByte, heq]
      rw [if_pos heq]
      exact ⟨hsh.trans (Shifter.afterLane_of_later hf),
        fun p => (hdata p).trans (congrFun (State.laneByte_copy heq) p)⟩
    · rw [if_neg heq]
      by_cases hfirst : x.oSrcbit < x.oDstbit ∧ x.dstbit ≠ 0
      · rw [if_pos hfirst]
        obtain ⟨hlt, hne⟩ := hfirst
        exact ⟨hsh.trans (Shifter.afterLane_of_first (decide_eq_true ⟨hlt, hne⟩)),
          fun p => (hdata p).trans (congrFun (State.laneByte_first hlt hne) p)⟩
      · rw [if_neg hfirst]
        have hf : x.firstByte = false := decide_eq_false hfirst
        exact ⟨hsh.trans (Shifter.afterLane_of_later hf),
          fun p => (hdata p).trans (congrFun (State.laneByte_combined heq hf) p)⟩

/-! ### Both outputs (R262, R266) -/

theorem State.setOut_eq_withPort (s : State) (o : Out) : s.setOut o = s.withPort s.cyclesLeft o := rfl

/-- A lane does not see the output port. -/
theorem exec_shOut8_setOut (ln : Bool) (s : State) (o : Out) :
    exec (.shOut8 ln true) (s.setOut o) = exec (.shOut8 ln true) s := by
  have hcycles : (s.shiftOut8 ln true).cyclesLeft = s.cyclesLeft := s.shiftOut8_keeps ln true .cyclesLeft (by decide)
  rw [exec_shOut8, exec_shOut8, s.setOut_eq_withPort, State.shiftOut8_withPort, State.setOut_withPort, ← hcycles]
  rfl

theorem State.again_of_exhausted {u : State} (h : u.sh.remain = 0) : u.again = u.reinit := if_pos h

theorem State.again_of_more {u : State} (h : u.sh.remain ≠ 0) : u.again = u := if_neg h

theorem State.again_keeps (u : State) : u.keepsBut [.sh] u.again := by
  by_cases h : u.sh.remain = 0
  · rw [State.again_of_exhausted h]
    exact u.reinit_keeps
  · rw [State.again_of_more h]
    exact u.keepsBut_refl _

/-- A row that ends in `again` answers as SH.REINIT does on an exhausted state, and that state otherwise. -/
theorem State.again_row (u : State) : if (u.setOut .none).sh.remain = 0
    then exec .shReinit (u.setOut .none) = .next (u.again.setOut .none) else u.again.setOut .none = u.setOut .none := by
  split
  next h =>
    rw [State.again_of_exhausted (u := u) h]
    rfl
  next h => rw [State.again_of_more (u := u) h]

/-- Settles O53: deferral, debit and lane order as the two rows write them, the end of a transfer as `again`. -/
theorem shiftOutputs : Obligations.ShiftOutputs := by
  unfold Obligations.ShiftOutputs
  intro s ln x again
  refine ⟨fun h => ?_, fun h => ?_, fun _ h => ?_, fun _ h => ?_⟩
  · refine ⟨_, exec_shOut8 ln false s, rfl, ?_⟩
    rw [State.shiftOut8_defer h]
    exact ⟨(s.getLane_setMaskLane ln ln _).trans (if_pos rfl),
      (s.getLane_setMaskLane ln (!ln) _).trans (if_neg (Bool.not_ne_self ln)),
      (s.setMaskLane_keeps ln _).out_next rfl (by simp)⟩
  · obtain ⟨k, hk⟩ := Int.eq_ofNat_of_zero_le (Int.sub_nonneg_of_le h)
    have hstaged := State.shiftOut8_staged hk.symm ln
    refine ⟨k, _, _, hk.symm, exec_shOut8_rec ln _, exec_shOut8 ln false s, ?_⟩
    rw [hstaged]
    split
    · exact State.again_row _
    · rfl
  · rw [exec_shOut16, State.shiftOut16_defer h]
  · refine ⟨_, _, ⟨_, exec_shOut8_rec x.dec _, (exec_shOut8_setOut _ _ _).trans (exec_shOut8_rec _ _)⟩,
      exec_shOut16 s, ?_⟩
    rw [State.shiftOut16_staged h]
    exact State.again_row _

/-! ### A word passed through (R271, R272, R274) -/

/-- The first lane of the direction lies at the cursor the word was staged at. -/
theorem Shifter.wordBase_first (x : Shifter) (k : Nat) :
    (x.wordBase + k + x.dec.toNat) % 512 = (x.bufi + k) % 512 := by
  rw [Shifter.wordBase]
  cases x.dec with
  | false => rfl
  | true =>
    show (x.bufi + 511 + k + 1) % 512 = _
    omega

/-- The second lane lies one byte further in the direction. -/
theorem Shifter.wordBase_second (x : Shifter) (k : Nat) :
    (x.wordBase + k + (!x.dec).toNat) % 512 = (moved x.dec 1 x.bufi + k) % 512 := by
  rw [Shifter.wordBase]
  cases x.dec with
  | false =>
    show (x.bufi + k + 1) % 512 = ((x.bufi + 1) % 512 + k) % 512
    omega
  | true =>
    show (x.bufi + 511 + k) % 512 = ((x.bufi + 512 - 1) % 512 + k) % 512
    omega

theorem dstbitMask_full {x : Shifter} (hd : x.dstbit = 0) (hr : 8 ≤ x.remain) : dstbitMask x = 0xFF#8 := by
  simp [dstbitMask, hd, hr]

theorem dstbitMask_exhausted {x : Shifter} (hr : x.remain = 0) : dstbitMask x = 0x00#8 := by
  cases hdec : x.dec <;> simp [dstbitMask, hr, hdec]

section
variable {s : State} (hd : s.sh.dstbit = 0)
include hd

theorem State.outLane_dstbit (ln : Bool) : (s.outLane ln).sh.dstbit < 8 := by
  rw [State.outLane_sh (by omega)]
  exact Nat.zero_lt_succ 7

/-- Two lanes in turn: the mask of each is the boundary mask as it stands then. -/
theorem State.twoLanes_mask (ln : Bool) {m : Half} (h1 : dstbitMask s.sh = getLane m ln)
    (h2 : dstbitMask s.sh.afterLane = getLane m (!ln)) : ((s.outLane ln).outLane (!ln)).srcMask = m := by
  have hlt : s.sh.dstbit < 8 := by omega
  refine half_ext_lanes fun k => ?_
  rw [State.outLane_mask (State.outLane_dstbit hd ln), State.outLane_mask hlt, State.outLane_sh hlt, h1, h2]
  cases ln <;> cases k <;> rfl

/-- With equal phases two lanes copy the byte at the cursor and the next one in the direction. -/
theorem State.twoLanes_src (he : s.sh.oSrcbit = s.sh.oDstbit) (ln : Bool) {q : Quad}
    (h1 : ∀ p : Plane, s.bufGet (s.sh.bufo + 4 * p.val) = getLane (q.get p) ln)
    (h2 : ∀ p : Plane, s.bufGet (moved s.sh.dec 1 s.sh.bufo + 4 * p.val) = getLane (q.get p) (!ln)) :
    ((s.outLane ln).outLane (!ln)).egcSrc = q := by
  have hlt : s.sh.dstbit < 8 := by omega
  have hf : s.sh.firstByte = false := by simp [Shifter.firstByte, he]
  have hsh := (State.outLane_sh hlt ln).trans (Shifter.afterLane_of_later hf)
  have hbuf : (s.outLane ln).buf = s.buf := s.outLane_keeps ln .buf (by decide)
  have hfirst (p : Plane) : s.laneByte p = getLane (q.get p) ln :=
    (congrFun (State.laneByte_copy he) p).trans (h1 p)
  have hsecond (p : Plane) : (s.outLane ln).laneByte p = getLane (q.get p) (!ln) := by
    refine (congrFun (State.laneByte_copy (by rw [hsh]; exact he)) p).trans ?_
    rw [State.bo, State.bufGet, hsh, hbuf]
    exact h2 p
  refine Quad.ext_get fun p => half_ext_lanes fun k => ?_
  rw [State.outLane_src (State.outLane_dstbit hd ln), State.outLane_src hlt, hfirst, hsecond]
  cases ln <;> cases k <;> rfl

theorem State.twoLanes_remain (ln : Bool) : ((s.outLane ln).outLane (!ln)).sh.remain = s.sh.remain - 16 := by
  rw [State.outLane_sh (State.outLane_dstbit hd ln), State.outLane_sh (by omega)]
  show s.sh.remain - (8 - s.sh.dstbit) - 8 = _
  omega

end

/-- A word staged and its 16 bits debited, on the way to the output lanes. -/
def State.wordStaged (s : State) (q : Quad) : State :=
  ((s.shiftIn16 q).setOut .none).setSh
    { s.sh with bufi := moved s.sh.dec 2 s.sh.bufi, load := 0, srcbit := 0 }

/-- From a state with nothing staged and phases 0, the word output follows the word input without deferral. -/
theorem State.shiftOut16_shiftIn16 {s : State} (hload : s.sh.load = 0) (hsrc : s.sh.srcbit = 0) (hd : s.sh.dstbit = 0)
    (q : Quad) : ((s.shiftIn16 q).setOut .none).shiftOut16 =
      (((s.wordStaged q).outLane s.sh.dec).outLane (!s.sh.dec)).again := by
  have hsh : ((s.shiftIn16 q).setOut .none).sh =
      { s.sh with bufi := moved s.sh.dec 2 s.sh.bufi, load := 16, srcbit := 0 } := by
    rw [State.setOut_sh, State.shiftIn16_sh]
    simp [Shifter.afterIn16, hload, hsrc]
  have hdebit : 16 - (16 - s.sh.dstbit) = 0 := by omega
  rw [State.shiftOut16_staged (by rw [hsh]; exact Nat.sub_le _ _), hsh]
  dsimp only
  rw [hdebit]
  rfl

/-- The output cursor finds the word where the input staged it. -/
theorem State.wordStaged_lanes {s : State} (h : s.Inv) (hcur : s.sh.bufi = s.sh.bufo) (q : Quad) (p : Plane) :
    (s.wordStaged q).bufGet (s.sh.bufo + 4 * p.val) = getLane (q.get p) s.sh.dec ∧
    (s.wordStaged q).bufGet (moved s.sh.dec 1 s.sh.bufo + 4 * p.val) = getLane (q.get p) (!s.sh.dec) := by
  have hbuf : (s.wordStaged q).buf = (s.stage16 q).buf := s.shiftIn16_buf q
  rw [State.bufGet, State.bufGet, hbuf, ← hcur, ← Shifter.wordBase_first, ← Shifter.wordBase_second]
  exact ⟨State.stage16_read h q p _, State.stage16_read h q p _⟩

theorem Shifter.afterLane_remain {x : Shifter} (hd : x.dstbit = 0) : x.afterLane.remain = x.remain - 8 :=
  congrArg (fun d => x.remain - (8 - d)) hd

/-- With 16 or more positions left both lanes are full. -/
theorem dstbitMask_word_full {x : Shifter} (hd : x.dstbit = 0) (hr : 16 ≤ x.remain) (ln : Bool) :
    dstbitMask x = getLane 0xFFFF#16 ln ∧ dstbitMask x.afterLane = getLane 0xFFFF#16 (!ln) := by
  have hremain := Shifter.afterLane_remain hd
  rw [dstbitMask_full hd (by omega), dstbitMask_full rfl (by omega)]
  exact ⟨(getLane_allOnes ln).symm, (getLane_allOnes (!ln)).symm⟩

/-- With 8 positions left only the first lane of the direction is full. -/
theorem dstbitMask_word_first {x : Shifter} (hd : x.dstbit = 0) (hr : x.remain = 8) :
    dstbitMask x = getLane (if x.dec then 0xFF00#16 else 0x00FF#16) x.dec ∧
    dstbitMask x.afterLane = getLane (if x.dec then 0xFF00#16 else 0x00FF#16) (!x.dec) := by
  have hremain := Shifter.afterLane_remain hd
  rw [dstbitMask_full hd (by omega), dstbitMask_exhausted (by omega)]
  cases x.dec <;> decide

/-- Settles O54: the word is staged in direction order at the cursor, and the two lanes copy it back in that order. -/
theorem shiftPassThrough : Obligations.ShiftPassThrough := by
  unfold Obligations.ShiftPassThrough
  intro s q0 q1 q2 q3 h hload hsrc hd he hcur
  have hin := exec_shIn16 q0 q1 q2 q3 s
  have hout := exec_shOut16 ((s.shiftIn16 ⟨q0, q1, q2, q3⟩).setOut .none)
  have hkeeps := ((exec_keeps hin).mono (l' := [.buf, .sh, .egcSrc, .srcMask, .out]) (by simp [Instr.writes])).trans
    ((exec_keeps hout).mono (by simp [Instr.writes]))
  have hlanes := State.wordStaged_lanes h hcur ⟨q0, q1, q2, q3⟩
  have hd' : (s.wordStaged ⟨q0, q1, q2, q3⟩).sh.dstbit = 0 := hd
  have hsrcs := State.twoLanes_src hd' he s.sh.dec (fun p => (hlanes p).1) fun p => (hlanes p).2
  have hremain := State.twoLanes_remain hd' s.sh.dec
  rw [State.shiftOut16_shiftIn16 hload hsrc hd] at hout hkeeps
  refine ⟨_, ⟨_, hin, hout⟩, (State.again_keeps _ .egcSrc (by decide)).trans hsrcs, fun hr => ?_, fun hr => ?_,
    fun hr => ?_, hkeeps⟩
  · obtain ⟨hfirst, hsecond⟩ := dstbitMask_word_full hd' hr s.sh.dec
    exact (State.again_keeps _ .srcMask (by decide)).trans (State.twoLanes_mask hd' _ hfirst hsecond)
  · obtain ⟨hfirst, hsecond⟩ := dstbitMask_word_first hd' hr
    exact (State.again_keeps _ .srcMask (by decide)).trans (State.twoLanes_mask hd' _ hfirst hsecond)
  · rw [State.again_of_exhausted (hremain.trans (Nat.sub_eq_zero_of_le hr))]
    rfl

end Sys2Proof.Machine
end

section
/-! The Boolean-Combination Table and its terms (R288 to R298), the light sources that leave the Shifter alone (R284,
R286, R287). -/

namespace Sys2Proof.Machine

/-! ### The terms (R288, R295) -/

/-- The destination term: the two VRAM bytes of the word that contains the accessed byte (R288). -/
theorem State.destQuad_get (s : State) (a : Nat) (p : Plane) : (s.destQuad a).get p =
    s.vramAt (s.wrap (s.pa p (a - a % 2) + 1)) ++ s.vramAt (s.wrap (s.pa p (a - a % 2))) := by
  have hword : a / 2 * 2 = a - a % 2 := by omega
  rw [State.destQuad, State.planeQuad, Quad.get_ofFn, hword, ← State.pa_eq_planeAddr]
  rfl

section
variable {s : State}

theorem State.patternQuad_background (h : s.cfg.egc.fgc = 1#2) : s.patternQuad = s.cfg.egc.bgcm := by
  rw [State.patternQuad, h]
  rfl

theorem State.patternQuad_foreground (h : s.cfg.egc.fgc = 2#2) : s.patternQuad = s.cfg.egc.fgcm := by
  rw [State.patternQuad, h]
  rfl

theorem State.patternQuad_plain (h : s.cfg.egc.fgc = 0#2 ∨ s.cfg.egc.fgc = 3#2) : s.patternQuad = s.patternPlain := by
  rw [State.patternQuad]
  obtain h | h := h <;> rw [h] <;> rfl

end

/-- The two values of `egc_fgc` that select no colour. -/
theorem fgc_plain {k : BitVec 2} (h1 : k ≠ 1#2) (h2 : k ≠ 2#2) : k = 0#2 ∨ k = 3#2 := by
  revert k
  decide

theorem State.patternQuad_get (s : State) (p : Plane) : s.patternQuad.get p =
    if s.cfg.egc.fgc = 1#2 then s.cfg.egc.bgcm.get p
    else if s.cfg.egc.fgc = 2#2 then s.cfg.egc.fgcm.get p
    else if s.cfg.egc.regload.getLsbD 0 then s.egcSrc.get p else s.tile.get p := by
  by_cases h1 : s.cfg.egc.fgc = 1#2
  · rw [if_pos h1, State.patternQuad_background h1]
  by_cases h2 : s.cfg.egc.fgc = 2#2
  · rw [if_neg h1, if_pos h2, State.patternQuad_foreground h2]
  · rw [if_neg h1, if_neg h2, State.patternQuad_plain (fgc_plain h1 h2)]
    exact apply_ite (fun q : Quad => q.get p) _ _ _

/-- Settles O43: each row answers the term its value of `egc_fgc` selects. -/
theorem patternTerms : Obligations.PatternTerms := by
  unfold Obligations.PatternTerms
  exact fun _ => ⟨rfl, rfl, rfl, rfl⟩

/-! ### The entries (R290 to R297) -/

/-- A two-operand entry, plane by plane. -/
theorem State.ropQuad_get (s : State) (f : Half → Half → Half) (a : Nat) (p : Plane) : (s.ropQuad f a).get p =
    f (s.egcSrc.get p)
      (s.vramAt (s.wrap (s.pa p (a - a % 2) + 1)) ++ s.vramAt (s.wrap (s.pa p (a - a % 2)))) := by
  rw [State.ropQuad, Quad.get_ofFn, State.destQuad_get]

theorem term_getLsbD (on : Bool) (x : Half) (j : Nat) : (term on x).getLsbD j = (on && x.getLsbD j) := by
  cases on
  · exact BitVec.getLsbD_zero
  · rfl

/-- Entry 0xFC is the union of source and destination (R292). -/
theorem ropFC_eq (s d : Half) : ropFC s d = s ||| d := by
  refine BitVec.eq_of_getLsbD_eq fun j hj => ?_
  simp only [ropFC, BitVec.getLsbD_or, BitVec.getLsbD_and, BitVec.getLsbD_not, hj, decide_true, Bool.true_and]
  cases s.getLsbD j <;> simp

/-- Of the four product terms the code 0x0C enables one (R293). -/
theorem ropFour_0C (s d : Half) : ropFour 0x0C#8 s d = ~~~s &&& d := by
  show 0#16 ||| 0#16 ||| (~~~s &&& d) ||| 0#16 = _
  rw [BitVec.or_zero, BitVec.or_zero, BitVec.zero_or]

/-- Settles O40: the entries plane by plane. -/
theorem ropEntries : Obligations.RopEntries := by
  unfold Obligations.RopEntries
  intro s a D S
  exact ⟨_, _, _, _, rfl, rfl, rfl, rfl, fun p =>
    ⟨s.ropQuad_get _ _ p, s.ropQuad_get _ _ p, (s.ropQuad_get _ _ p).trans (ropFC_eq _ _),
      (s.ropQuad_get _ _ p).trans (ropFour_0C _ _)⟩⟩

/-- The eight product terms of R294 are the rows of a truth table, of which one holds at each position: bit
`4S + 2D + P` of the code. -/
theorem ropEight_getLsbD (code : Byte) (p s d : Half) {j : Nat} (hj : j < 16) : (ropEight code p s d).getLsbD j =
    code.getLsbD (4 * (s.getLsbD j).toNat + 2 * (d.getLsbD j).toNat + (p.getLsbD j).toNat) := by
  simp only [ropEight, term_getLsbD, BitVec.getLsbD_or, BitVec.getLsbD_and, BitVec.getLsbD_not, hj, decide_true,
    Bool.true_and]
  cases s.getLsbD j <;> cases d.getLsbD j <;> cases p.getLsbD j <;> simp

/-- Settles O41: the row with the parameter's code is the eight-term entry, read as a truth table. -/
theorem ropPattern : Obligations.RopPattern := by
  unfold Obligations.RopPattern
  intro s code a hcode c D P
  refine ⟨s.ropPat code a.toNat, if_pos hcode, fun p j hj => ?_⟩
  rw [State.ropPat, Quad.get_ofFn, ropEight_getLsbD _ _ _ _ hj, State.destQuad_get, State.patternQuad_get]

theorem exec_egcropStub (s : State) (code : Byte) (a : BitVec 15) :
    exec (.egcropStub code a) s = .next ((s.logOnce .egcRop code).setOut (.quad s.egcLast)) := rfl

/-- Settles O42: the stub is the snapshot and one diagnostic, whatever the address. -/
theorem ropStub : Obligations.RopStub := by
  unfold Obligations.RopStub
  intro s code a b
  refine ⟨_, exec_egcropStub s code a, exec_egcropStub s code b, rfl, ?_⟩
  have hkeeps := exec_keeps (exec_egcropStub s code a)
  obtain ⟨hin, hlog⟩ | ⟨hnew, hlog⟩ := s.logOnce_cases .egcRop code
  · rw [hlog] at hkeeps ⊢
    exact ⟨hin, fun _ => rfl, fun h => absurd hin h, hkeeps⟩
  · rw [hlog] at hkeeps ⊢
    exact ⟨List.mem_append_right _ List.mem_cons_self, fun h => absurd h hnew, fun _ => rfl, hkeeps⟩

/-! ### Light sources that leave the Shifter alone (R284, R286, R287) -/

section
variable {s : State}

theorem State.light2_background (h : s.cfg.egc.fgc = 1#2) (a : Nat) (n : PortWidth) (val : Half) :
    s.light2 a n val = ⟨s.cfg.egc.bgcm, s.cfg.egc.mask, s⟩ := by
  rw [State.light2, h]
  rfl

theorem State.light2_foreground (h : s.cfg.egc.fgc = 2#2) (a : Nat) (n : PortWidth) (val : Half) :
    s.light2 a n val = ⟨s.cfg.egc.fgcm, s.cfg.egc.mask, s⟩ := by
  rw [State.light2, h]
  rfl

theorem State.light2_plain (h : s.cfg.egc.fgc = 0#2 ∨ s.cfg.egc.fgc = 3#2) (a : Nat) (n : PortWidth) (val : Half) :
    s.light2 a n val =
      ⟨(s.shiftCpu a n val).egcSrc, (s.shiftCpu a n val).shiftedMask, s.shiftCpu a n val⟩ := by
  rw [State.light2]
  obtain h | h := h <;> rw [h] <;> rfl

end

/-- What a light source's row answers, from what the light source gives. -/
def Light.row (l : Light) : Result := .next (l.state.setOut (.egc l.data l.mask))

section
variable {n : PortWidth} {a : BitVec 15} (h : alignedAt n a.toNat) (val : Half) (s : State)
include h

theorem exec_egcLs0 : exec (.egcLs0 a n val) s = (s.light0 n val).row := aligned_of h _

theorem exec_egcLs1 : exec (.egcLs1 a n val) s = (s.light1 a.toNat n val).row := aligned_of h _

theorem exec_egcLs2 : exec (.egcLs2 a n val) s = (s.light2 a.toNat n val).row := aligned_of h _

theorem exec_egcLs3 : exec (.egcLs3 a n val) s = (s.light3 n val).row := aligned_of h _

end

/-- Settles O44: light sources 0 and 3 are the CPU data, light source 2 under a colour is that colour. -/
theorem lightsDirect : Obligations.LightsDirect := by
  unfold Obligations.LightsDirect
  intro s a n val h cpu r
  refine ⟨?_, ?_, fun hfgc => ?_, fun hfgc => ?_⟩
  · rw [exec_egcLs0 h]
    cases n <;> rfl
  · rw [exec_egcLs3 h]
    cases n <;> rfl
  · rw [exec_egcLs2 h, State.light2_background hfgc, Light.row]
  · rw [exec_egcLs2 h, State.light2_foreground hfgc, Light.row]

end Sys2Proof.Machine
end

section
/-! The EGC paths that run the Shifter (R283, R285, R304): as sequences of the rows they name. A row ends by setting the
port, which none of the operations read. -/

namespace Sys2Proof.Machine

/-! ### The port between two rows -/

/-- An operation that commutes with a change of budget and port commutes with a change of the port. -/
theorem State.setOut_of_withPort {f : State → State}
    (hf : ∀ (s : State) (c : Int) (o : Out), f (s.withPort c o) = (f s).withPort c o) (s : State) (o : Out) :
    f (s.setOut o) = (f s).setOut o := by
  have hsame : f s = (f s).withPort s.cyclesLeft s.out := hf s s.cyclesLeft s.out
  calc f (s.setOut o) = (f s).withPort s.cyclesLeft o := hf s s.cyclesLeft o
    _ = ((f s).withPort s.cyclesLeft s.out).setOut o := rfl
    _ = (f s).setOut o := by rw [← hsame]

theorem State.shiftThrough_setOut (n : PortWidth) (ln : Bool) (q : Quad) (s : State) (o : Out) :
    (s.setOut o).shiftThrough n ln q = (s.shiftThrough n ln q).setOut o :=
  State.setOut_of_withPort (f := fun t => t.shiftThrough n ln q) (fun t c o => t.shiftThrough_withPort c o n ln q) s o

theorem State.shiftOut8_setOut (ln rec : Bool) (s : State) (o : Out) :
    (s.setOut o).shiftOut8 ln rec = (s.shiftOut8 ln rec).setOut o :=
  State.setOut_of_withPort (f := fun t => t.shiftOut8 ln rec) (fun t c o => t.shiftOut8_withPort c o ln rec) s o

theorem State.shiftOut16_setOut (s : State) (o : Out) : (s.setOut o).shiftOut16 = s.shiftOut16.setOut o :=
  State.setOut_of_withPort State.shiftOut16_withPort s o

theorem State.ropEntry_setOut (s : State) (code : Byte) (a : Nat) (o : Out) :
    (s.setOut o).ropEntry code a = ((s.ropEntry code a).1, (s.ropEntry code a).2.setOut o) := by
  have hport : (s.setOut o).ropEntry code a = _ := s.ropEntry_withPort s.cyclesLeft o code a
  have hstate : ((s.setOut o).ropEntry code a).2 = (s.ropEntry code a).2.setOut o :=
    State.setOut_of_withPort (f := fun t => (t.ropEntry code a).2)
      (fun t c o => congrArg Prod.snd (t.ropEntry_withPort c o code a)) s o
  rw [← hstate, hport]

theorem State.light_setOut (s : State) (a : Nat) (n : PortWidth) (val : Half) (o : Out) :
    (s.setOut o).light a n val =
      ⟨(s.light a n val).data, (s.light a n val).mask, (s.light a n val).state.setOut o⟩ := by
  have hport : (s.setOut o).light a n val = _ := s.light_withPort s.cyclesLeft o a n val
  have hstate : ((s.setOut o).light a n val).state = (s.light a n val).state.setOut o :=
    State.setOut_of_withPort (f := fun t => (t.light a n val).state)
      (fun t c o => congrArg Light.state (t.light_withPort c o a n val)) s o
  rw [← hstate, hport]

theorem State.setOut_setOut (s : State) (o o' : Out) : (s.setOut o).setOut o' = s.setOut o' := rfl

/-- An operation run under a condition: where the condition holds its rows lead from `s` to `t`, but for the port. -/
theorem run_if (c : Prop) [Decidable c] {runs : State → Prop} {s t : State} (h : runs (t.setOut .none)) :
    ∃ o, (c → runs ((if c then t else s).setOut o)) ∧ (¬c → (if c then t else s).setOut o = s) := by
  by_cases hc : c
  · rw [if_pos hc]
    exact ⟨.none, fun _ => h, fun hn => absurd hc hn⟩
  · rw [if_neg hc]
    exact ⟨s.out, fun hp => absurd hp hc, fun _ => rfl⟩

/-! ### The Shifter's rows (R283, R304) -/

/-- A byte input stages the low byte of each chunk only (R256). -/
theorem State.shiftIn8_congr {q q' : Quad} (h : ∀ p, getLane (q.get p) false = getLane (q'.get p) false) (s : State)
    (odd : Bool) : s.shiftIn8 q odd = s.shiftIn8 q' odd := by
  have hchunks : chunks8 q = chunks8 q' := by simp only [chunks8, h]
  rw [State.shiftIn8_eq, State.shiftIn8_eq, State.stage8_eq, State.stage8_eq, hchunks]

theorem exec_inRow_byte (ln : Bool) (q : Quad) (s : State) :
    exec (inRow .byte ln q) s = .next ((s.shiftIn8 q ln).setOut .none) := by
  refine (exec_shIn8 _ _ _ _ ln s).trans (congrArg (fun t : State => Host.Outcome.next (t.setOut .none)) ?_)
  refine State.shiftIn8_congr (fun p => ?_) s ln
  exact (getLane_get_setWidth (fun r => (q.get r).setWidth 8) p).trans (setWidth_eq_getLane _)

/-- One input row and one output row are one word, or byte, through the Shifter. -/
theorem runs2_shiftRows (n : PortWidth) (ln : Bool) (q : Quad) (s : State) :
    runs2 (inRow n ln q) (outRow n ln) s ((s.shiftThrough n ln q).setOut .none) := by
  cases n with
  | byte =>
    refine ⟨_, exec_inRow_byte ln q s, (exec_shOut8 ln false _).trans ?_⟩
    rw [State.shiftOut8_setOut, State.setOut_setOut, State.shiftThrough]
  | word =>
    refine ⟨_, exec_shIn16 q.p0 q.p1 q.p2 q.p3 s, (exec_shOut16 _).trans ?_⟩
    rw [State.shiftOut16_setOut, State.setOut_setOut, State.shiftThrough]

/-! ### Light sources fed by the Shifter (R285, R286) -/

/-- The table's entry of a code is that code's row (R114, R288). -/
theorem exec_ropRow (s : State) (code : Byte) (a : BitVec 15) : exec (ropRow s.plat.patCode code a) s =
    .next ((s.ropEntry code a.toNat).2.setOut (.quad (s.ropEntry code a.toNat).1)) := by
  unfold ropRow State.ropEntry
  split_ifs with _ _ _ _ hpat
  · rfl
  · rfl
  · rfl
  · rfl
  · exact if_pos hpat
  · rfl

theorem State.shiftCpu_plat (s : State) (a : Nat) (n : PortWidth) (val : Half) :
    (s.shiftCpu a n val).plat = s.plat := s.shiftCpu_keeps a n val .plat (by decide)

theorem State.shiftCpu_cfg (s : State) (a : Nat) (n : PortWidth) (val : Half) :
    (s.shiftCpu a n val).cfg = s.cfg := s.shiftCpu_keeps a n val .cfg (by decide)

/-- Settles O45: past the optional shift the row is the table's row, and the mask is narrowed there. -/
theorem lightsShifted : Obligations.LightsShifted := by
  unfold Obligations.LightsShifted
  intro s a n val h
  obtain ⟨o, hshift, hstay⟩ := run_if (s.cfg.egc.shiftinput = true)
    (runs2_shiftRows n (laneOf a.toNat) (Quad.const val) s)
  have hplat := s.shiftCpu_plat a.toNat n val
  have hcfg := s.shiftCpu_cfg a.toNat n val
  have hrop := exec_ropRow ((s.shiftCpu a.toNat n val).setOut o) s.cfg.egc.rop a
  rw [State.ropEntry_setOut, State.setOut_setOut, State.setOut_plat, hplat] at hrop
  refine ⟨(s.shiftCpu a.toNat n val).setOut o, hshift, fun hoff => hstay (Bool.eq_false_iff.1 hoff),
    ⟨_, _, hrop, rfl, ?_⟩, fun hfgc => ?_⟩
  · rw [exec_egcLs1 h, State.light1, Light.row, State.shiftedMask, hcfg]
    rfl
  · rw [exec_egcLs2 h, State.light2_plain hfgc, Light.row, State.shiftedMask, hcfg]
    rfl

end Sys2Proof.Machine
end

section
/-! The EGC read as the sequence of rows R304 names, and the value it answers (R305 to R308). -/

namespace Sys2Proof.Machine

/-! ### What a frame says of addresses -/

section
variable {s t : State} {l : List Reg} (h : s.keepsBut l t)
include h

theorem State.keepsBut.wrap (hp : .plat ∉ l := by decide) : t.wrap = s.wrap := by
  have hplat : t.plat = s.plat := h .plat hp
  funext o
  simp only [State.wrap, hplat]

theorem State.keepsBut.pa (hp : .plat ∉ l := by decide) (hc : .cfg ∉ l := by decide) : t.pa = s.pa := by
  have hplat : t.plat = s.plat := h .plat hp
  have hcfg : t.cfg = s.cfg := h .cfg hc
  funext p a
  simp only [State.pa, hplat, hcfg]

theorem State.keepsBut.pageBase (hp : .plat ∉ l := by decide) (hc : .cfg ∉ l := by decide) :
    t.pageBase = s.pageBase := by
  have hplat : t.plat = s.plat := h .plat hp
  have hcfg : t.cfg = s.cfg := h .cfg hc
  simp only [State.pageBase, hplat, hcfg]

theorem State.keepsBut.vramAt (hv : .vram ∉ l := by decide) : t.vramAt = s.vramAt := by
  have hvram : t.vram = s.vram := h .vram hv
  funext x
  simp only [State.vramAt, hvram]

theorem State.keepsBut.pread (hp : .plat ∉ l := by decide) (hv : .vram ∉ l := by decide) : t.pread = s.pread := by
  funext o n
  cases n with
  | byte => simp only [State.pread, State.vbyte_eq, h.wrap hp, h.vramAt hv]
  | word => simp only [State.pread, State.vhalf, State.vbyte_eq, h.wrap hp, h.vramAt hv]

end

/-! ### The state and the value -/

theorem State.snapshot_loaded (s : State) (a : Nat) (n : PortWidth) (p : Plane) :
    loaded s (s.pa p a) n (laneOf a) (s.egcLast.get p) ((s.snapshot a n).egcLast.get p) := by
  simp only [State.snapshot, State.setEgcLast_egcLast, Quad.putSel, State.planeQuad, Quad.get_ofFn,
    State.pa_eq_planeAddr]
  exact loaded_putSel_pread s _ n _ _

/-- The snapshot, and the register load on read where it is selected (R305, R306). -/
def State.readLoaded (s : State) (a : Nat) (n : PortWidth) : State :=
  if s.cfg.egc.regload.getLsbD 0 = true then (s.snapshot a n).tilesFromLast a n else s.snapshot a n

theorem State.readLoaded_keeps (s : State) (a : Nat) (n : PortWidth) :
    (s.snapshot a n).keepsBut [.tile] (s.readLoaded a n) := by
  unfold State.readLoaded
  split
  · exact State.tilesFromLast_keeps _ a n
  · exact State.keepsBut_refl _ _

/-- The Shifter is fed with the snapshot unless its input is CPU data (R304). -/
theorem State.egcReadState_eq (s : State) (off : Nat) (n : PortWidth) : s.egcReadState off n =
    if ¬s.cfg.egc.shiftinput = true then (s.readLoaded (inPlane off) n).shiftThrough n (laneOf (inPlane off))
      (Quad.selAll n (laneOf (inPlane off)) (s.snapshot (inPlane off) n).egcLast)
    else s.readLoaded (inPlane off) n := by
  have hkeeps := s.readLoaded_keeps (inPlane off) n
  have hcfg : (s.readLoaded (inPlane off) n).cfg = s.cfg := hkeeps .cfg (by decide)
  have hlast : (s.readLoaded (inPlane off) n).egcLast = (s.snapshot (inPlane off) n).egcLast :=
    hkeeps .egcLast (by decide)
  rw [ite_not, ← hlast, ← hcfg]
  rfl

/-- The value is the lead plane's shifted part, or VRAM as it was (R307, R308). -/
theorem State.egcRead_value (s : State) (off : Nat) (n : PortWidth) : (s.egcRead off n).1 =
    if s.cfg.egc.compareLead then
      if s.cfg.egc.access.getLsbD s.cfg.egc.leadPlane.toNat then 0#16
      else sel n (laneOf (inPlane off)) ((s.egcReadState off n).egcSrc.get s.cfg.egc.leadPlane.toFin)
    else s.pread (off + s.pageBase) n := by
  have hkeeps := s.egcReadState_keeps off n
  have hcfg : (s.egcReadState off n).cfg = s.cfg := hkeeps .cfg (by decide)
  have hpage : (s.egcReadState off n).vopOffset = s.pageBase := hkeeps.pageBase
  rw [State.egcRead, State.egcReadValue, hcfg, hpage, hkeeps.pread]

theorem exec_egcRlRead {n : PortWidth} {a : BitVec 15} (h : alignedAt n a.toNat) (s : State) :
    exec (.egcRlRead false a n) s = .next ((s.tilesFromLast a.toNat n).setOut .none) := aligned_of h _

/-- The in-plane offset of a graphics access (R223). -/
theorem toNat_inPlane (off : BitVec 18) : (off.setWidth 15).toNat = inPlane off.toNat := BitVec.toNat_setWidth 15 off

theorem alignedAt_inPlane {n : PortWidth} {x : Nat} (h : alignedAt n x) : alignedAt n (inPlane x) :=
  h.imp_right fun heven => by
    unfold inPlane
    omega

/-- Settles O48: the rows in turn, each under its condition; the port they set is overwritten by the value. -/
theorem egcRead : Obligations.EgcRead := by
  unfold Obligations.EgcRead
  intro s m n off h a ln c
  have ha : a.toNat = inPlane off.toNat := toNat_inPlane off
  have haligned : alignedAt n a.toNat := ha ▸ alignedAt_inPlane h
  have hln : ln = laneOf (inPlane off.toNat) := congrArg laneOf ha
  obtain ⟨o1, hload, hnoload⟩ := run_if (c.regload.getLsbD 0 = true)
    (runs := fun v => exec (.egcRlRead false a n) (s.snapshot a.toNat n) = .next v) (exec_egcRlRead haligned _)
  obtain ⟨o2, hshift, hnoshift⟩ := run_if (¬c.shiftinput = true)
    (runs2_shiftRows n ln (Quad.selAll n ln (s.snapshot a.toNat n).egcLast) ((s.readLoaded a.toNat n).setOut o1))
  have hstate := s.egcReadState_eq off.toNat n
  rw [State.shiftThrough_setOut, ← apply_ite (State.setOut · o1), ha, hln, ← hstate, State.setOut_setOut]
    at hshift hnoshift
  refine ⟨s.snapshot a.toNat n, (s.readLoaded a.toNat n).setOut o1, (s.egcReadState off.toNat n).setOut o2,
    (s.egcRead off.toNat n).1, s.snapshot_loaded a.toNat n, (s.snapshot_keeps a.toNat n).mono (by simp),
    ite_prop_iff_and.2 ⟨hload, hnoload⟩, ite_prop_iff_and.2 ⟨fun hon => hnoshift (not_not.2 hon), ?_⟩, ?_,
    aligned_of h _, s.egcReadState_keeps off.toNat n .vram (by decide)⟩
  · rw [ha, hln]
    exact hshift
  · rw [hln, s.egcRead_value off.toNat n]
    cases n <;> rfl

end Sys2Proof.Machine
end

section
/-! The EGC write (R280, R289): the write-back plane by plane under the effective mask, after the register load and the
light source. -/

namespace Sys2Proof.Machine

/-! ### The accessed bytes (R281) -/

/-- Byte `k` of the accessed part of a register stands in the lane of that byte. -/
theorem getLane_sel {n : PortWidth} (a : Nat) (x : Half) {k : Nat} (hk : k < portBytes n) :
    getLane (sel n (laneOf a) x) (decide (k = 1)) = getLane x (laneAt n a k) := by
  cases n with
  | byte =>
    obtain rfl : k = 0 := Nat.lt_one_iff.1 hk
    exact getLane_setWidth _
  | word => rfl

theorem blend_zero {w : Nat} (old new : BitVec w) : blend old 0 new = old := by
  simp [blend]

/-! ### One plane -/

section
variable {s : State} {p : Plane} (a : Nat) (n : PortWidth) (d : Quad) (acc : Half)

theorem State.writeBackPlane_excluded (h : s.cfg.egc.access.getLsbD p.val = true) :
    s.writeBackPlane a n d acc p = s := if_pos h

theorem State.writeBackPlane_included (h : s.cfg.egc.access.getLsbD p.val = false) : s.writeBackPlane a n d acc p =
    s.pwrite (s.pa p a) n (blend (s.pread (s.pa p a) n) acc (sel n (laneOf a) (d.get p))) := by
  rw [State.pa_eq_planeAddr, blend, BitVec.and_comm acc]
  exact if_neg (Bool.eq_false_iff.1 h)

theorem State.writeBackPlane_setVram (s : State) (p : Plane) :
    s.writeBackPlane a n d acc p = s.setVram (s.writeBackPlane a n d acc p).vram := by
  cases h : s.cfg.egc.access.getLsbD p.val with
  | true =>
    rw [State.writeBackPlane_excluded a n d acc h]
    rfl
  | false =>
    rw [State.writeBackPlane_included a n d acc h]
    exact State.pwrite_setVram _ _ _ _

variable (hs : s.Inv)
include hs

theorem State.Inv.writeBackPlane (p : Plane) : (s.writeBackPlane a n d acc p).Inv := by
  cases h : s.cfg.egc.access.getLsbD p.val with
  | true => rwa [State.writeBackPlane_excluded a n d acc h]
  | false =>
    rw [State.writeBackPlane_included a n d acc h]
    exact hs.pwrite _ _ _

/-- The accessed bytes of a plane that is not excluded take the data under the mask. -/
theorem State.writeBackPlane_vramAt_add (hb : 2 ≤ s.plat.vmemBits) (hon : s.cfg.egc.access.getLsbD p.val = false)
    {k : Nat} (hk : k < portBytes n) : (s.writeBackPlane a n d acc p).vramAt (s.wrap (s.pa p a + k)) =
      blend (s.vramAt (s.wrap (s.pa p a + k))) (getLane acc (decide (k = 1)))
        (getLane (d.get p) (laneAt n a k)) := by
  rw [State.writeBackPlane_included a n d acc hon, State.pwrite_vramAt_add hs.vramWf hb _ _ hk, getLane_blend,
    getLane_pread s _ hk, getLane_sel a _ hk]

theorem State.writeBackPlane_outside {x : Nat}
    (hx : s.cfg.egc.access.getLsbD p.val = false → s.outside (s.pa p a) (portBytes n) x) :
    (s.writeBackPlane a n d acc p).vramAt x = s.vramAt x := by
  cases h : s.cfg.egc.access.getLsbD p.val with
  | true => rw [State.writeBackPlane_excluded a n d acc h]
  | false =>
    rw [State.writeBackPlane_included a n d acc h]
    exact State.pwrite_outside hs.vramWf (hx h) _

end

/-! ### The planes together -/

/-- The planes of `l` written back one after the other. -/
def State.writeBackPlanes (s : State) (a : Nat) (n : PortWidth) (d : Quad) (acc : Half) (l : List Plane) : State :=
  l.foldl (fun t p => t.writeBackPlane a n d acc p) s

theorem State.writeBackPlanes_cons (s : State) (a : Nat) (n : PortWidth) (d : Quad) (acc : Half) (p : Plane)
    (l : List Plane) : s.writeBackPlanes a n d acc (p :: l) =
      (s.writeBackPlane a n d acc p).writeBackPlanes a n d acc l := rfl

section
variable {s : State} {a : Nat} {n : PortWidth} {d : Quad} {acc : Half} {l : List Plane} (hs : s.Inv)
include hs

theorem State.writeBackPlanes_outside {x : Nat}
    (hx : ∀ p ∈ l, s.cfg.egc.access.getLsbD p.val = false → s.outside (s.pa p a) (portBytes n) x) :
    (s.writeBackPlanes a n d acc l).vramAt x = s.vramAt x := by
  induction l generalizing s with
  | nil => rfl
  | cons q l ih =>
    obtain ⟨hq, hl⟩ := List.forall_mem_cons.1 hx
    rw [State.writeBackPlanes_cons, ← State.writeBackPlane_outside a n d acc hs hq]
    refine ih (hs.writeBackPlane a n d acc q) ?_
    rw [State.writeBackPlane_setVram]
    exact hl

/-- The windows of the planes stay apart, so each plane finds its bytes as they were and keeps what it stored. -/
theorem State.writeBackPlanes_vramAt_add (h19 : 19 ≤ s.plat.vmemBits) (hfit : ∀ k < portBytes n, a + k < 0x8000)
    (hl : l.Nodup) {p : Plane} (hp : p ∈ l) (hon : s.cfg.egc.access.getLsbD p.val = false) {k : Nat}
    (hk : k < portBytes n) : (s.writeBackPlanes a n d acc l).vramAt (s.wrap (s.pa p a + k)) =
      blend (s.vramAt (s.wrap (s.pa p a + k))) (getLane acc (decide (k = 1)))
        (getLane (d.get p) (laneAt n a k)) := by
  induction l generalizing s with
  | nil => cases hp
  | cons q l ih =>
    obtain ⟨hql, hl⟩ := List.nodup_cons.1 hl
    have hapart {r : Plane} (hr : p ≠ r) : s.outside (s.pa r a) (portBytes n) (s.wrap (s.pa p a + k)) :=
      fun j hj => s.wrap_pa_ne h19 hr (hfit k hk) (hfit j hj)
    have hinv := hs.writeBackPlane a n d acc q
    have hset := s.writeBackPlane_setVram a n d acc q
    have hfirst := State.writeBackPlane_outside (p := q) (x := s.wrap (s.pa p a + k)) a n d acc hs
    have hstored := State.writeBackPlane_vramAt_add a n d acc hs (p := q) (le_trans (by decide) h19)
    rw [hset] at hinv hfirst hstored
    rw [State.writeBackPlanes_cons, hset]
    obtain rfl | hp := List.mem_cons.1 hp
    · refine (State.writeBackPlanes_outside hinv fun r hr _ => ?_).trans (hstored hon hk)
      exact hapart (ne_of_mem_of_not_mem hr hql).symm
    · rw [← hfirst fun _ => hapart (ne_of_mem_of_not_mem hp hql)]
      exact ih hinv h19 hl hp hon

end

/-! ### The write-back (R289) -/

section
variable {s : State} {a : Nat} {n : PortWidth} {d : Quad} {mask : Half}

theorem State.writeBack_skipped (h : sel n (laneOf a) mask = 0x0000#16) : s.writeBack a n d mask = s := if_pos h

theorem State.writeBack_planes (h : sel n (laneOf a) mask ≠ 0x0000#16) :
    s.writeBack a n d mask = s.writeBackPlanes a n d (sel n (laneOf a) mask) planes := if_neg h

variable (hs : s.Inv)
include hs

/-- A write-back skipped under an empty mask leaves what that mask would leave. -/
theorem State.writeBack_vramAt_add (h19 : 19 ≤ s.plat.vmemBits) (hfit : ∀ k < portBytes n, a + k < 0x8000)
    {p : Plane} (hon : s.cfg.egc.access.getLsbD p.val = false) {k : Nat} (hk : k < portBytes n) :
    (s.writeBack a n d mask).vramAt (s.wrap (s.pa p a + k)) =
      blend (s.vramAt (s.wrap (s.pa p a + k))) (getLane mask (laneAt n a k)) (getLane (d.get p) (laneAt n a k)) := by
  rw [← getLane_sel a mask hk]
  by_cases hzero : sel n (laneOf a) mask = 0x0000#16
  · have hlane : getLane 0x0000#16 (decide (k = 1)) = 0 := by cases decide (k = 1) <;> rfl
    rw [State.writeBack_skipped hzero, hzero, hlane, blend_zero]
  · rw [State.writeBack_planes hzero]
    exact State.writeBackPlanes_vramAt_add hs h19 hfit (by decide) (mem_planes p) hon hk

theorem State.writeBack_outside {x : Nat}
    (hx : ∀ p : Plane, s.cfg.egc.access.getLsbD p.val = false → s.outside (s.pa p a) (portBytes n) x) :
    (s.writeBack a n d mask).vramAt x = s.vramAt x := by
  by_cases hzero : sel n (laneOf a) mask = 0x0000#16
  · rw [State.writeBack_skipped hzero]
  · rw [State.writeBack_planes hzero]
    exact State.writeBackPlanes_outside hs fun p _ => hx p

end

/-! ### The write (R280) -/

theorem State.keepsBut.symm {s t : State} {l : List Reg} (h : s.keepsBut l t) : t.keepsBut l s := fun r hr => by
  have hsame := h r hr
  cases r <;> exact Eq.symm hsame

/-- A frame that leaves out the port holds whatever the two ports show. -/
theorem State.keepsBut.setOut {s t : State} {l : List Reg} (h : s.keepsBut l t) (hl : .out ∈ l) (o o' : Out) :
    (s.setOut o).keepsBut l (t.setOut o') := by
  have hport : ∀ r ∈ [Reg.out], r ∈ l := by simpa using hl
  exact (((s.keepsBut_setOut o).symm.mono hport).trans h).trans ((t.keepsBut_setOut o').mono hport)

/-- The register load on write, where it is selected (R300). -/
def State.writeLoaded (s : State) (a : Nat) (n : PortWidth) : State :=
  if s.cfg.egc.regload.getLsbD 1 = true then s.tilesFromVram a n else s

theorem State.writeLoaded_keeps (s : State) (a : Nat) (n : PortWidth) : s.keepsBut [.tile] (s.writeLoaded a n) := by
  unfold State.writeLoaded
  split
  · exact s.tilesFromVram_keeps a n
  · exact s.keepsBut_refl _

/-- The light source that runs after the register load. -/
def State.writeLight (s : State) (a : Nat) (n : PortWidth) (val : Half) : Light := (s.writeLoaded a n).light a n val

theorem State.egcWrite_eq (s : State) (a : Nat) (n : PortWidth) (val : Half) : s.egcWrite a n val =
    (s.writeLight a n val).state.writeBack a n (s.writeLight a n val).data (s.writeLight a n val).mask := rfl

theorem State.writeLight_keeps (s : State) (a : Nat) (n : PortWidth) (val : Half) :
    s.keepsBut (.tile :: .logged :: shiftRegs) (s.writeLight a n val).state :=
  ((s.writeLoaded_keeps a n).mono (by simp)).trans
    (((s.writeLoaded a n).light_keeps a n val).mono fun _ => List.mem_cons_of_mem _)

theorem State.Inv.writeLight {s : State} (h : s.Inv) (a : Nat) (n : PortWidth) (val : Half) :
    (s.writeLight a n val).state.Inv := (h.of_keeps (s.writeLoaded_keeps a n)).light a n val

section
variable {s : State} (hs : s.Inv) {a : Nat} {n : PortWidth} (val : Half)
include hs

/-- The light source leaves VRAM and its addresses, so the write-back stores over the bytes of `s`. -/
theorem State.egcWrite_vramAt_add (h19 : 19 ≤ s.plat.vmemBits) (hfit : ∀ k < portBytes n, a + k < 0x8000)
    {p : Plane} (hon : s.cfg.egc.access.getLsbD p.val = false) {k : Nat} (hk : k < portBytes n) :
    (s.egcWrite a n val).vramAt (s.wrap (s.pa p a + k)) =
      blend (s.vramAt (s.wrap (s.pa p a + k))) (getLane (s.writeLight a n val).mask (laneAt n a k))
        (getLane ((s.writeLight a n val).data.get p) (laneAt n a k)) := by
  have hu := s.writeLight_keeps a n val
  have hinv := hs.writeLight a n val
  have hcfg : (s.writeLight a n val).state.cfg = s.cfg := hu .cfg (by decide)
  have hplat : (s.writeLight a n val).state.plat = s.plat := hu .plat (by decide)
  rw [State.egcWrite_eq, ← hu.wrap, ← hu.pa, ← hu.vramAt]
  exact State.writeBack_vramAt_add hinv (hplat ▸ h19) hfit (hcfg ▸ hon) hk

theorem State.egcWrite_outside {x : Nat}
    (hx : ∀ p : Plane, s.cfg.egc.access.getLsbD p.val = false → s.outside (s.pa p a) (portBytes n) x) :
    (s.egcWrite a n val).vramAt x = s.vramAt x := by
  have hu := s.writeLight_keeps a n val
  have hcfg : (s.writeLight a n val).state.cfg = s.cfg := hu .cfg (by decide)
  rw [State.egcWrite_eq, ← hu.vramAt]
  refine State.writeBack_outside (hs.writeLight a n val) fun p hon j hj => ?_
  rw [hu.wrap, hu.pa]
  exact hx p (hcfg ▸ hon) j hj

end

/-! ### The rows (R115, R280, R300) -/

/-- The row of the light source that `egc_lightsource` selects (R115). -/
theorem exec_lightRow {n : PortWidth} {a : BitVec 15} (h : alignedAt n a.toNat) (val : Half) (s : State) :
    exec (lightRow s.cfg.egc.lightsource a n val) s = (s.light a.toNat n val).row := by
  unfold State.light
  generalize s.cfg.egc.lightsource = k
  match k with
  | 0#2 => exact exec_egcLs0 h val s
  | 1#2 => exact exec_egcLs1 h val s
  | 2#2 => exact exec_egcLs2 h val s
  | 3#2 => exact exec_egcLs3 h val s

theorem exec_egcRlWrite {n : PortWidth} {a : BitVec 15} (h : alignedAt n a.toNat) (s : State) :
    exec (.egcRlWrite a n) s = .next ((s.tilesFromVram a.toNat n).setOut .none) := aligned_of h _

/-- Settles O47: the register load and the light source as their rows, then the write-back. -/
theorem egcWrite : Obligations.EgcWrite := by
  unfold Obligations.EgcWrite
  intro s m n off val hs h19 h a c o
  have ha : a.toNat = inPlane off.toNat := toNat_inPlane off
  have haligned : alignedAt n a.toNat := ha ▸ alignedAt_inPlane h
  have hfit : ∀ k < portBytes n, a.toNat + k < 0x8000 := fun k hk => ha ▸ inPlane_add_lt h hk
  obtain ⟨o1, hload, hnoload⟩ := run_if (c.regload.getLsbD 1 = true)
    (runs := fun v => exec (.egcRlWrite a n) s = .next v) (exec_egcRlWrite haligned s)
  have hlight := exec_lightRow haligned val ((s.writeLoaded a.toNat n).setOut o1)
  have hcfg : (s.writeLoaded a.toNat n).cfg = s.cfg := s.writeLoaded_keeps a.toNat n .cfg (by decide)
  rw [State.light_setOut, State.setOut_cfg, hcfg, Light.row, State.setOut_setOut] at hlight
  have hwrite : exec (.vopEgcWr m n off val) s = .next ((s.egcWrite a.toNat n val).setOut .none) := by
    rw [ha]
    exact aligned_of h _
  refine ⟨_, _, _, (s.writeLight a.toNat n val).data, (s.writeLight a.toNat n val).mask,
    ite_prop_iff_and.2 ⟨hload, hnoload⟩, hlight, rfl, hwrite, fun p k hon hk => ?_,
    fun x hx => State.egcWrite_outside hs val hx, rfl, ?_⟩
  · refine (State.egcWrite_vramAt_add hs val h19 hfit hon hk).trans ?_
    rw [blend, BitVec.and_comm (getLane (s.writeLight a.toNat n val).mask _)]
  · rw [State.egcWrite_eq]
    exact State.keepsBut.setOut ((State.writeBack_keeps _ _ _ _ _).mono (by simp)) (by simp) _ _

end Sys2Proof.Machine
end

section
/-! The marks of `Logged` (R324): which operations issue diagnostics, and that the list only grows, each mark once. -/

namespace Sys2Proof.Machine

/-- `t` holds the marks of `s`, oldest first, and after them the marks issued since; none twice where none was twice
before. -/
structure State.marksGrow (s t : State) : Prop where
  appended : ∃ l, t.logged = s.logged ++ l
  nodup : s.logged.Nodup → t.logged.Nodup

theorem State.marksGrow_of_eq {s t : State} (h : t.logged = s.logged) : s.marksGrow t where
  appended := ⟨[], by rw [h, List.append_nil]⟩
  nodup hs := h ▸ hs

theorem State.marksGrow_refl (s : State) : s.marksGrow s := State.marksGrow_of_eq rfl

theorem State.marksGrow.trans {s t u : State} (h : s.marksGrow t) (h' : t.marksGrow u) : s.marksGrow u where
  appended := by
    obtain ⟨l, hl⟩ := h.appended
    obtain ⟨l', hl'⟩ := h'.appended
    exact ⟨l ++ l', by rw [hl', hl, List.append_assoc]⟩
  nodup hs := h'.nodup (h.nodup hs)

/-- What leaves `Logged` alone lets the marks stand. -/
theorem State.keepsBut.marksGrow {s t : State} {l : List Reg} (h : s.keepsBut l t) (hl : .logged ∉ l := by decide) :
    s.marksGrow t := State.marksGrow_of_eq (h .logged hl)

/-! ### The operations that issue a diagnostic (R138, R296, R324) -/

theorem State.marksGrow_logOnce (s : State) (k : LogKind) (v : Byte) : s.marksGrow (s.logOnce k v) where
  appended := by
    obtain ⟨-, h⟩ | ⟨-, h⟩ := s.logOnce_cases k v <;> rw [h]
    · exact s.marksGrow_refl.appended
    · exact ⟨_, rfl⟩
  nodup hs := State.logOnce_nodup hs k v

theorem State.marksGrow_modeOperation (s : State) (v : Byte) : s.marksGrow (s.modeOperation v).2 := by
  unfold State.modeOperation
  split
  case h_5 => exact s.marksGrow_logOnce _ _
  all_goals exact s.marksGrow_refl

theorem State.marksGrow_planarWriteByte (s : State) (idx : Nat) (v : Byte) (lanes : Word) :
    s.marksGrow (s.planarWriteByte idx v lanes) :=
  (s.marksGrow_modeOperation v).trans (State.marksGrow_of_eq rfl)

theorem State.marksGrow_ropEntry (s : State) (code : Byte) (a : Nat) : s.marksGrow (s.ropEntry code a).2 := by
  unfold State.ropEntry
  split_ifs
  case neg => exact s.marksGrow_logOnce _ _
  all_goals exact s.marksGrow_refl

/-! ### EGC writes, decoder writes -/

theorem State.marksGrow_light1 (s : State) (a : Nat) (n : PortWidth) (v : Half) :
    s.marksGrow (s.light1 a n v).state :=
  (s.shiftCpu_keeps a n v).marksGrow.trans (State.marksGrow_ropEntry _ _ a)

theorem State.marksGrow_light (s : State) (a : Nat) (n : PortWidth) (v : Half) : s.marksGrow (s.light a n v).state := by
  unfold State.light
  split
  case h_2 => exact s.marksGrow_light1 a n v
  case h_3 => exact (s.light2_keeps a n v).marksGrow
  all_goals exact s.marksGrow_refl

theorem State.marksGrow_egcWrite (s : State) (a : Nat) (n : PortWidth) (v : Half) : s.marksGrow (s.egcWrite a n v) := by
  rw [State.egcWrite_eq]
  exact ((s.writeLoaded_keeps a n).marksGrow.trans (State.marksGrow_light _ a n v)).trans
    (State.writeBack_keeps _ _ _ _ _).marksGrow

theorem State.marksGrow_graphicsWrite (s : State) (off : Nat) (n : PortWidth) (v : Half) :
    s.marksGrow (s.graphicsWrite off n v) := by
  obtain e | e | e | e := s.graphicsWrite_cases off n v <;> rw [e]
  · exact (s.pwrite_keeps _ n v).marksGrow
  · exact (s.tileCopyWrite_keeps _ n).marksGrow
  · exact (s.tileMaskWrite_keeps _ n v).marksGrow
  · exact s.marksGrow_egcWrite _ n v

theorem decoderWrite_marksGrow {n : PortWidth} {addr : Word} {v : Half} {s t : State}
    (e : decoderWrite n addr v s = .next t) : s.marksGrow t := by
  obtain rfl | rfl | rfl | rfl := decoderWrite_next e
  · exact t.marksGrow_refl
  · exact (s.pwrite_keeps _ n v).marksGrow
  · exact (s.attrWrite_keeps _ n v).marksGrow
  · exact s.marksGrow_graphicsWrite _ n v

theorem decoderWrites_marksGrow {n : PortWidth} {k : Nat} {addr data : Word} {s t : State}
    (e : decoderWrites n k addr data s.debitWrite = .next t) : s.marksGrow t :=
  decoderWrites_preserves s.marksGrow n (fun _ _ _ _ hs h => hs.trans (decoderWrite_marksGrow h)) k addr data _ t
    s.debitWrite_keeps.marksGrow e

/-! ### Deliveries to a handler, transactions -/

theorem writeBytes_marksGrow {f : Word → Byte → State → State} (hf : ∀ a b (t : State), t.marksGrow (f a b t))
    (n : Nat) (addr data : Word) (s : State) : s.marksGrow (writeBytes f n addr data s.debitWrite) :=
  writeBytes_preserves s.marksGrow f (fun a b t h => h.trans (hf a b t)) n addr data _ s.debitWrite_keeps.marksGrow

theorem serveWrite_marksGrow {g : Tag} {w : Width} {addr data : Word} {s t : State}
    (e : serveWrite g w addr data s = .next t) : s.marksGrow t := by
  cases g with
  | unmapped | text | cgaSnowText | hercules | tandy | pcjr | amstrad => cases e
  | pc98 => exact decoderWrites_marksGrow e
  | unchained | chainedVgaSlow | chainedVgaEt4kSlow =>
    obtain rfl := Host.Outcome.next.inj e
    exact writeBytes_marksGrow (fun _ _ t => t.marksGrow_planarWriteByte _ _ _) _ _ _ s
  | chainedEga => cases e; exact (chainedEgaWrite_keeps w addr data s).marksGrow
  | chainedVga => cases e; exact (chainedVgaWrite_keeps w addr data s).marksGrow
  | chainedVgaEt4k => cases e; exact (chainedVgaEt4kWrite_keeps w addr data s).marksGrow
  | linear => cases e; exact (linearTagWrite_keeps w addr data s).marksGrow

theorem memWrite_marksGrow {w : Width} {addr data : Word} {s t : State} (e : memWrite w addr data s = .next t) :
    s.marksGrow t :=
  memWrite_preserves s.marksGrow (fun _ _ _ _ _ _ hs h => hs.trans (serveWrite_marksGrow h)) s.marksGrow_refl e

/-! ### Rows -/

/-- Setting the port issues no diagnostic. -/
theorem State.marksGrow.out_next {s u t : State} {o : Out} (h : s.marksGrow u)
    (e : (.next (u.setOut o) : Result) = .next t) : s.marksGrow t :=
  Host.Outcome.next.inj e ▸ h.trans (u.keepsBut_setOut o).marksGrow

theorem finishWrite_marksGrow {r : Result} {s t : State} (h : ∀ u, r = .next u → s.marksGrow u)
    (e : finishWrite r = .next t) : s.marksGrow t := by
  obtain ⟨u, hu, rfl⟩ := finishWrite_next_iff.1 e
  exact (h u hu).out_next rfl

/-- Every row but RESET lets the marks grow: the rows that can issue a diagnostic by the rule of their operation, the
others because `Logged` is none of their fields. -/
theorem exec_marksGrow {i : Instr} {s t : State} (hi : i ≠ .reset) (e : exec i s = .next t) : s.marksGrow t := by
  cases i with
  | reset => exact absurd rfl hi
  | wr8 | wr16 | wr32 => exact finishWrite_marksGrow (fun _ => memWrite_marksGrow) e
  | wmUnsup mode => exact (s.marksGrow_logOnce .writeMode mode).out_next e
  | unchainedWr => exact finishWrite_marksGrow (fun _ => serveWrite_marksGrow (g := .unchained)) e
  | chainedVgaSlowWr => exact finishWrite_marksGrow (fun _ => serveWrite_marksGrow (g := .chainedVgaSlow)) e
  | chainedVgaEt4kSlowWr => exact finishWrite_marksGrow (fun _ => serveWrite_marksGrow (g := .chainedVgaEt4kSlow)) e
  | pc98Wr => exact finishWrite_marksGrow (fun _ => decoderWrites_marksGrow) e
  | pc98GraphicsWr n addr v => exact (s.marksGrow_graphicsWrite _ n v).out_next (aligned_next_iff.1 e).2
  | vopEgcWr mode n off v => exact (s.marksGrow_egcWrite _ n v).out_next (aligned_next_iff.1 e).2
  | egcLs1 a n val => exact (s.marksGrow_light1 a.toNat n val).out_next (aligned_next_iff.1 e).2
  | egcropPat code a =>
    obtain ⟨o, ho⟩ | ⟨o, ho⟩ := execEgcropPat_cases code a s
    · exact s.marksGrow_refl.out_next (ho.symm.trans e)
    · exact (s.marksGrow_logOnce .egcRop code).out_next (ho.symm.trans e)
  | egcropStub code => exact (s.marksGrow_logOnce .egcRop code).out_next e
  | _ => exact (exec_keeps e).marksGrow (by simp [Instr.writes, shiftRegs])

/-- Settles O9: RESET empties the list, every other row lets it grow. -/
theorem loggedOnlyGrows : Obligations.LoggedOnlyGrows := by
  unfold Obligations.LoggedOnlyGrows
  intro i s t e
  constructor
  · rintro rfl
    obtain rfl := Host.Outcome.next.inj e
    rfl
  · intro hi
    have hgrow := exec_marksGrow hi e
    exact ⟨hgrow.appended, hgrow.nodup⟩

end Sys2Proof.Machine
end

section
/-! Noninterference of the marks and the budget (R324, R370): two states that differ in them only are alike, and every
operation takes alike states to alike states, with the same values on the way. -/

namespace Sys2Proof.Machine

/-- `t` is `s` with other marks in `Logged` and another budget. -/
def State.alike (s t : State) : Prop := ∃ l c, t = (s.setLogged l).setCyclesLeft c

/-- The same value, and alike states. -/
def alikeWith {α : Type} (q r : α × State) : Prop := r.1 = q.1 ∧ q.2.alike r.2

/-- Two branches on a condition that says the same on both sides. -/
theorem rel_ite {α : Type} (R : α → α → Prop) {p q : Prop} {_ : Decidable p} {_ : Decidable q} {a b a' b' : α}
    (h : p ↔ q) (ha : R a a') (hb : R b b') : R (if p then a else b) (if q then a' else b') := by
  by_cases hp : p
  · rwa [if_pos hp, if_pos (h.1 hp)]
  · rwa [if_neg hp, if_neg (mt h.2 hp)]

theorem State.alike.foldl {α : Type} {f : State → α → State} (hf : ∀ s t x, s.alike t → (f s x).alike (f t x)) :
    ∀ (l : List α) (s t : State), s.alike t → (l.foldl f s).alike (l.foldl f t)
  | [], _, _, h => h
  | x :: l, _, _, h => State.alike.foldl hf l _ _ (hf _ _ x h)

/-! ### The two fields themselves: diagnostics and debits -/

section
variable {s t : State} (h : s.alike t)
include h

theorem State.alike.setLogged (x y : List LogMark) : (s.setLogged x).alike (t.setLogged y) := by
  obtain ⟨l, c, rfl⟩ := h
  exact ⟨y, c, rfl⟩

theorem State.alike.setCyclesLeft (x y : Int) : (s.setCyclesLeft x).alike (t.setCyclesLeft y) := by
  obtain ⟨l, c, rfl⟩ := h
  exact ⟨l, y, rfl⟩

/-- Alike states stay alike, whichever of the two had the mark before. -/
theorem State.alike.logOnce (k : LogKind) (v : Byte) : (s.logOnce k v).alike (t.logOnce k v) := by
  rw [s.logOnce_setLogged k v, t.logOnce_setLogged k v]
  exact h.setLogged _ _

theorem State.alike.debitRead : s.debitRead.alike t.debitRead := h.setCyclesLeft _ _

theorem State.alike.debitWrite : s.debitWrite.alike t.debitWrite := h.setCyclesLeft _ _

theorem State.alike.cfg : t.cfg = s.cfg := by
  obtain ⟨l, c, rfl⟩ := h
  rfl

/-! ### VRAM -/

theorem State.alike.putByte (i : Nat) (v : Byte) : (s.putByte i v).alike (t.putByte i v) := by
  obtain ⟨l, c, rfl⟩ := h
  exact ⟨l, c, rfl⟩

theorem State.alike.planarStore (i : Nat) (v : Word) : (s.planarStore i v).alike (t.planarStore i v) := by
  obtain ⟨l, c, rfl⟩ := h
  exact ⟨l, c, rfl⟩

theorem State.alike.vwrite (i : Nat) (w : Width) (v : Word) : (s.vwrite i w v).alike (t.vwrite i w v) := by
  obtain ⟨l, c, rfl⟩ := h
  cases w <;> exact ⟨l, c, rfl⟩

theorem State.alike.pwrite (i : Nat) (n : PortWidth) (v : Half) : (s.pwrite i n v).alike (t.pwrite i n v) := by
  obtain ⟨l, c, rfl⟩ := h
  cases n <;> exact ⟨l, c, rfl⟩

theorem State.alike.pread : t.pread = s.pread := by
  obtain ⟨l, c, rfl⟩ := h
  funext i n
  cases n <;> rfl

theorem State.alike.attrRead (i : Nat) (n : PortWidth) : t.attrRead i n = s.attrRead i n := by
  obtain ⟨l, c, rfl⟩ := h
  cases n <;> rfl

theorem State.alike.attrWrite (i : Nat) (n : PortWidth) (v : Half) : (s.attrWrite i n v).alike (t.attrWrite i n v) := by
  obtain ⟨l, c, rfl⟩ := h
  cases n with
  | byte => exact rel_ite State.alike .rfl ⟨l, c, rfl⟩ ⟨l, c, rfl⟩
  | word => exact ⟨l, c, rfl⟩

/-! ### The planar handlers -/

theorem State.alike.planarReadByte (i : Nat) (raw : Bool) (p : Plane) :
    alikeWith (s.planarReadByte i raw p) (t.planarReadByte i raw p) := by
  obtain ⟨l, c, rfl⟩ := h
  exact rel_ite alikeWith .rfl ⟨rfl, l, c, rfl⟩ ⟨rfl, l, c, rfl⟩

theorem State.alike.modeOperation (v : Byte) : alikeWith (s.modeOperation v) (t.modeOperation v) := by
  unfold State.modeOperation
  rw [h.cfg]
  split
  case h_5 => exact ⟨rfl, h.logOnce _ _⟩
  all_goals
    obtain ⟨l, c, rfl⟩ := h
    exact ⟨rfl, l, c, rfl⟩

theorem State.alike.planarWriteByte (i : Nat) (v : Byte) (lanes : Word) :
    (s.planarWriteByte i v lanes).alike (t.planarWriteByte i v lanes) := by
  obtain ⟨hword, hstate⟩ := h.modeOperation v
  rw [State.planarWriteByte, State.planarWriteByte, hword]
  obtain ⟨l, c, rfl⟩ := h
  exact hstate.planarStore i _

/-! ### The Shifter -/

theorem State.alike.reinit : s.reinit.alike t.reinit := by
  obtain ⟨l, c, rfl⟩ := h
  exact ⟨l, c, rfl⟩

theorem State.alike.shiftIn8 (q : Quad) (odd : Bool) : (s.shiftIn8 q odd).alike (t.shiftIn8 q odd) := by
  rw [State.shiftIn8_eq, State.shiftIn8_eq]
  obtain ⟨l, c, rfl⟩ := h
  exact ⟨l, c, rfl⟩

theorem State.alike.shiftIn16 (q : Quad) : (s.shiftIn16 q).alike (t.shiftIn16 q) := by
  rw [State.shiftIn16_eq, State.shiftIn16_eq]
  obtain ⟨l, c, rfl⟩ := h
  exact ⟨l, c, rfl⟩

theorem State.alike.outData (ln : Bool) : (s.outData ln).alike (t.outData ln) := by
  rw [State.outData_eq, State.outData_eq]
  obtain ⟨l, c, rfl⟩ := h
  exact ⟨l, c, rfl⟩

theorem State.alike.outLane (ln : Bool) : (s.outLane ln).alike (t.outLane ln) := by
  obtain ⟨l, c, rfl⟩ := h
  exact rel_ite State.alike .rfl ⟨l, c, rfl⟩ (State.alike.outData ⟨l, c, rfl⟩ ln)

/-- The end of an output: what the transfer has left is the same, so both sides reinitialise or neither does. -/
theorem State.alike.reinit_ite (p : Nat → Prop) [DecidablePred p] :
    (if p s.sh.remain then s.reinit else s).alike (if p t.sh.remain then t.reinit else t) := by
  obtain ⟨l, c, rfl⟩ := h
  exact rel_ite State.alike .rfl ⟨l, c, rfl⟩ ⟨l, c, rfl⟩

theorem State.alike.shiftOut8 (ln rec : Bool) : (s.shiftOut8 ln rec).alike (t.shiftOut8 ln rec) := by
  have hlane := h.outLane ln
  obtain ⟨l, c, rfl⟩ := h
  refine rel_ite State.alike .rfl hlane (rel_ite State.alike .rfl ⟨l, c, rfl⟩ ?_)
  exact State.alike.reinit_ite (State.alike.outLane ⟨l, c, rfl⟩ ln)
    fun r => (!decide (8 ≤ s.sh.dstbit) && r == 0) = true

theorem State.alike.shiftOut16 : s.shiftOut16.alike t.shiftOut16 := by
  obtain ⟨l, c, rfl⟩ := h
  refine rel_ite State.alike .rfl ⟨l, c, rfl⟩ (State.alike.reinit_ite ?_ (· = 0))
  have hload (x : Shifter) : (s.setSh x).alike (((s.setLogged l).setCyclesLeft c).setSh x) := ⟨l, c, rfl⟩
  exact rel_ite State.alike .rfl (((hload _).shiftOut8 true true).shiftOut8 false true)
    (((hload _).shiftOut8 false true).shiftOut8 true true)

theorem State.alike.shiftThrough (n : PortWidth) (ln : Bool) (q : Quad) :
    (s.shiftThrough n ln q).alike (t.shiftThrough n ln q) := by
  cases n with
  | byte => exact (h.shiftIn8 q ln).shiftOut8 ln false
  | word => exact (h.shiftIn16 q).shiftOut16

/-! ### The EGC -/

theorem State.alike.planeQuad (a : Nat) (n : PortWidth) : t.planeQuad a n = s.planeQuad a n := by
  obtain ⟨l, c, rfl⟩ := h
  cases n <;> rfl

theorem State.alike.tilesFromVram (a : Nat) (n : PortWidth) : (s.tilesFromVram a n).alike (t.tilesFromVram a n) := by
  rw [State.tilesFromVram, State.tilesFromVram, h.planeQuad]
  obtain ⟨l, c, rfl⟩ := h
  exact ⟨l, c, rfl⟩

theorem State.alike.tilesFromLast (a : Nat) (n : PortWidth) : (s.tilesFromLast a n).alike (t.tilesFromLast a n) := by
  obtain ⟨l, c, rfl⟩ := h
  exact ⟨l, c, rfl⟩

theorem State.alike.snapshot (a : Nat) (n : PortWidth) : (s.snapshot a n).alike (t.snapshot a n) := by
  rw [State.snapshot, State.snapshot, h.planeQuad]
  obtain ⟨l, c, rfl⟩ := h
  exact ⟨l, c, rfl⟩

theorem State.alike.shiftCpu (a : Nat) (n : PortWidth) (v : Half) : (s.shiftCpu a n v).alike (t.shiftCpu a n v) := by
  have hshift := h.shiftThrough n (laneOf a) (Quad.const v)
  obtain ⟨l, c, rfl⟩ := h
  exact rel_ite State.alike .rfl hshift ⟨l, c, rfl⟩

theorem State.alike.ropStub (code : Byte) : alikeWith (s.ropStub code) (t.ropStub code) := by
  refine ⟨?_, h.logOnce .egcRop code⟩
  obtain ⟨l, c, rfl⟩ := h
  rfl

theorem State.alike.ropEntry (code : Byte) (a : Nat) : alikeWith (s.ropEntry code a) (t.ropEntry code a) := by
  have hstub := h.ropStub code
  obtain ⟨l, c, rfl⟩ := h
  iterate 5 refine rel_ite alikeWith .rfl ⟨rfl, l, c, rfl⟩ ?_
  exact hstub

end

/-- The same data, the same mask, and alike states. -/
structure Light.alike (q r : Light) : Prop where
  data : r.data = q.data
  mask : r.mask = q.mask
  state : q.state.alike r.state

section
variable {s t : State} (h : s.alike t)
include h

theorem State.alike.light1 (a : Nat) (n : PortWidth) (v : Half) : (s.light1 a n v).alike (t.light1 a n v) := by
  have hshift := h.shiftCpu a n v
  obtain ⟨hdata, hstate⟩ := hshift.ropEntry (s.shiftCpu a n v).cfg.egc.rop a
  rw [State.light1, State.light1]
  rw [hshift.cfg]
  refine ⟨hdata, ?_, hstate⟩
  obtain ⟨l, c, e⟩ := hshift
  rw [e]
  rfl

theorem State.alike.light2 (a : Nat) (n : PortWidth) (v : Half) : (s.light2 a n v).alike (t.light2 a n v) := by
  unfold State.light2
  rw [h.cfg]
  split
  case h_3 =>
    obtain ⟨l, c, e⟩ := h.shiftCpu a n v
    rw [e]
    exact ⟨rfl, rfl, l, c, rfl⟩
  all_goals exact ⟨rfl, rfl, h⟩

theorem State.alike.light (a : Nat) (n : PortWidth) (v : Half) : (s.light a n v).alike (t.light a n v) := by
  unfold State.light
  rw [h.cfg]
  split
  case h_2 => exact h.light1 a n v
  case h_3 => exact h.light2 a n v
  all_goals
    obtain ⟨l, c, rfl⟩ := h
    exact ⟨rfl, rfl, l, c, rfl⟩

theorem State.alike.writeBackPlane (a : Nat) (n : PortWidth) (d : Quad) (acc : Half) (p : Plane) :
    (s.writeBackPlane a n d acc p).alike (t.writeBackPlane a n d acc p) := by
  obtain ⟨l, c, rfl⟩ := h
  cases n <;> exact rel_ite State.alike .rfl ⟨l, c, rfl⟩ ⟨l, c, rfl⟩

theorem State.alike.writeBack (a : Nat) (n : PortWidth) (d : Quad) (m : Half) :
    (s.writeBack a n d m).alike (t.writeBack a n d m) :=
  rel_ite State.alike .rfl h (State.alike.foldl (fun _ _ p hp => hp.writeBackPlane a n d _ p) planes s t h)

theorem State.alike.writeLoaded (a : Nat) (n : PortWidth) : (s.writeLoaded a n).alike (t.writeLoaded a n) := by
  have hload := h.tilesFromVram a n
  obtain ⟨l, c, rfl⟩ := h
  exact rel_ite State.alike .rfl hload ⟨l, c, rfl⟩

theorem State.alike.egcWrite (a : Nat) (n : PortWidth) (v : Half) : (s.egcWrite a n v).alike (t.egcWrite a n v) := by
  obtain ⟨hdata, hmask, hstate⟩ : (s.writeLight a n v).alike (t.writeLight a n v) := (h.writeLoaded a n).light a n v
  rw [State.egcWrite_eq, State.egcWrite_eq, hdata, hmask]
  exact hstate.writeBack a n _ _

theorem State.alike.readLoaded (a : Nat) (n : PortWidth) : (s.readLoaded a n).alike (t.readLoaded a n) := by
  have hsnap := h.snapshot a n
  obtain ⟨l, c, rfl⟩ := h
  exact rel_ite State.alike .rfl (hsnap.tilesFromLast a n) hsnap

theorem State.alike.egcReadState (off : Nat) (n : PortWidth) : (s.egcReadState off n).alike (t.egcReadState off n) := by
  have hload := h.readLoaded (inPlane off) n
  have hlast : (t.snapshot (inPlane off) n).egcLast = (s.snapshot (inPlane off) n).egcLast := by
    obtain ⟨l, c, e⟩ := h.snapshot (inPlane off) n
    rw [e]
    rfl
  rw [State.egcReadState_eq, State.egcReadState_eq, hlast]
  obtain ⟨l, c, rfl⟩ := h
  exact rel_ite State.alike .rfl (hload.shiftThrough n _ _) hload

theorem State.alike.egcRead (off : Nat) (n : PortWidth) : alikeWith (s.egcRead off n) (t.egcRead off n) := by
  have hstate := h.egcReadState off n
  refine ⟨?_, hstate⟩
  simp only [State.egcRead, State.egcReadValue, hstate.pread]
  obtain ⟨l, c, e⟩ := hstate
  rw [e]
  rfl

/-! ### The PC-98 decoder -/

theorem State.alike.tileCopyPlane (a : Nat) (n : PortWidth) (p : Plane) :
    (s.tileCopyPlane a n p).alike (t.tileCopyPlane a n p) := by
  obtain ⟨l, c, rfl⟩ := h
  cases n <;> exact rel_ite State.alike .rfl ⟨l, c, rfl⟩ ⟨l, c, rfl⟩

theorem State.alike.tileMaskPlane (a : Nat) (n : PortWidth) (v : Half) (p : Plane) :
    (s.tileMaskPlane a n v p).alike (t.tileMaskPlane a n v p) := by
  obtain ⟨l, c, rfl⟩ := h
  cases n <;> exact rel_ite State.alike .rfl ⟨l, c, rfl⟩ ⟨l, c, rfl⟩

theorem State.alike.tileCopyWrite (a : Nat) (n : PortWidth) : (s.tileCopyWrite a n).alike (t.tileCopyWrite a n) :=
  State.alike.foldl (fun _ _ p hp => hp.tileCopyPlane a n p) planes s t h

theorem State.alike.tileMaskWrite (a : Nat) (n : PortWidth) (v : Half) :
    (s.tileMaskWrite a n v).alike (t.tileMaskWrite a n v) :=
  State.alike.foldl (fun _ _ p hp => hp.tileMaskPlane a n v p) planes s t h

theorem State.alike.tileCopyRead (a : Nat) (n : PortWidth) : t.tileCopyRead a n = s.tileCopyRead a n := by
  rw [State.tileCopyRead, h.pread]
  obtain ⟨l, c, rfl⟩ := h
  rfl

theorem State.alike.passRead (off : Nat) (n : PortWidth) : t.passRead off n = s.passRead off n := by
  rw [State.passRead, h.pread]
  obtain ⟨l, c, rfl⟩ := h
  rfl

theorem State.alike.passWrite (off : Nat) (n : PortWidth) (v : Half) :
    (s.passWrite off n v).alike (t.passWrite off n v) := by
  have hwrite := h.pwrite (off + s.vopOffset) n v
  obtain ⟨l, c, rfl⟩ := h
  exact hwrite

theorem State.alike.vopUnassigned : s.vopUnassigned.alike t.vopUnassigned := by
  rw [State.vopUnassigned, State.vopUnassigned, h.cfg]
  exact h.logOnce _ _

theorem State.alike.graphicsRead (off : Nat) (n : PortWidth) :
    alikeWith (s.graphicsRead off n) (t.graphicsRead off n) := by
  unfold State.graphicsRead
  rw [h.cfg]
  split
  case h_9 | h_10 => exact ⟨h.tileCopyRead _ n, h⟩
  case h_13 | h_14 | h_15 | h_16 => exact h.egcRead off n
  case h_17 => exact ⟨h.passRead off n, h.vopUnassigned⟩
  all_goals exact ⟨h.passRead off n, h⟩

theorem State.alike.graphicsWrite (off : Nat) (n : PortWidth) (v : Half) :
    (s.graphicsWrite off n v).alike (t.graphicsWrite off n v) := by
  unfold State.graphicsWrite
  rw [h.cfg]
  split
  case h_9 | h_10 => exact h.tileCopyWrite _ n
  case h_11 | h_12 => exact h.tileMaskWrite _ n v
  case h_13 | h_14 | h_15 | h_16 => exact h.egcWrite _ n v
  case h_17 => exact h.vopUnassigned.passWrite off n v
  all_goals exact h.passWrite off n v

/-! ### The dispatcher -/

theorem State.alike.bindTag (g : Tag) : (s.bindTag g).alike (t.bindTag g) := by
  obtain ⟨l, c, rfl⟩ := h
  cases g with
  | text => exact rel_ite State.alike .rfl ⟨l, c, rfl⟩ ⟨l, c, rfl⟩
  | _ => exact ⟨l, c, rfl⟩

theorem State.alike.bindLfb : s.bindLfb.alike t.bindLfb := by
  obtain ⟨l, c, rfl⟩ := h
  unfold State.bindLfb
  rw [State.setCyclesLeft_plat, State.setLogged_plat]
  split <;> exact ⟨l, c, rfl⟩

theorem State.alike.dispatchWith (g : Tag) : (s.dispatchWith g).alike (t.dispatchWith g) := by
  obtain ⟨l, c, rfl⟩ := h
  exact (State.alike.bindTag ⟨l, c, rfl⟩ g).bindLfb

theorem State.alike.dispatch : s.dispatch.alike t.dispatch := by
  have hdispatch := h.dispatchWith (selectHandler s.plat s.cfg)
  obtain ⟨l, c, rfl⟩ := h
  exact hdispatch

theorem State.alike.resetAll : s.resetAll.alike t.resetAll := by
  have hclear : (s.setVram []).alike (t.setVram []) := by
    obtain ⟨l, c, rfl⟩ := h
    exact ⟨l, c, rfl⟩
  exact hclear.reinit.dispatch.setLogged [] []

end

end Sys2Proof.Machine
end

section
/-! Noninterference of the marks and the budget, outcome by outcome (R324, R370): accesses, deliveries, transactions and
rows on alike states stop for the same reason, or answer the same value and leave alike states. -/

namespace Sys2Proof.Machine

/-! ### Outcomes -/

/-- The same stop, or next states (or results of a read) that `R` relates. -/
inductive OutcomeRel {α : Type} (R : α → α → Prop) : Host.Outcome α Fault Refusal → Host.Outcome α Fault Refusal → Prop
  | next {x y : α} (h : R x y) : OutcomeRel R (.next x) (.next y)
  | fault (e : Fault) : OutcomeRel R (.fault e) (.fault e)
  | refused (e : Refusal) : OutcomeRel R (.refused e) (.refused e)

theorem OutcomeRel.next_left {α : Type} {R : α → α → Prop} {x : α} {r : Host.Outcome α Fault Refusal}
    (h : OutcomeRel R (.next x) r) : ∃ y, r = .next y ∧ R x y := by
  cases h with
  | next hxy => exact ⟨_, rfl, hxy⟩

theorem OutcomeRel.andThen {α β : Type} {R : α → α → Prop} {Q : β → β → Prop} {q r : Host.Outcome α Fault Refusal}
    {k m : α → Host.Outcome β Fault Refusal} (h : OutcomeRel R q r) (hk : ∀ x y, R x y → OutcomeRel Q (k x) (m y)) :
    OutcomeRel Q (andThen q k) (andThen r m) := by
  cases h with
  | next hxy => exact hk _ _ hxy
  | fault e => exact .fault e
  | refused e => exact .refused e

theorem OutcomeRel.aligned {α : Type} {R : α → α → Prop} {q r : Host.Outcome α Fault Refusal} (h : OutcomeRel R q r)
    (n : PortWidth) (x : Nat) : OutcomeRel R (aligned n x q) (aligned n x r) :=
  rel_ite (OutcomeRel R) .rfl (.fault _) h

/-- A row that ends by setting the port to the same value. -/
theorem State.alike.out {u v : State} (h : u.alike v) {o o' : Out} (ho : o' = o) :
    OutcomeRel State.alike (.next (u.setOut o)) (.next (v.setOut o')) := by
  obtain ⟨l, c, rfl⟩ := h
  exact .next ⟨l, c, by rw [ho]; rfl⟩

theorem Light.alike.row {q r : Light} (h : q.alike r) : OutcomeRel State.alike q.row r.row :=
  h.state.out (by rw [h.data, h.mask])

theorem OutcomeRel.finishRead {q r : ReadResult} (h : OutcomeRel alikeWith q r) (w : Width) :
    OutcomeRel State.alike (finishRead w q) (finishRead w r) :=
  h.andThen fun _ _ hqr => hqr.2.out (by rw [hqr.1])

theorem OutcomeRel.finishWrite {q r : Result} (h : OutcomeRel State.alike q r) :
    OutcomeRel State.alike (finishWrite q) (finishWrite r) :=
  h.andThen fun _ _ hqr => hqr.out rfl

/-! ### Accesses of the decoder -/

section
variable {s t : State} (h : s.alike t)
include h

theorem State.alike.decoderRead (n : PortWidth) (addr : Word) :
    OutcomeRel alikeWith (decoderRead n addr s) (decoderRead n addr t) := by
  refine OutcomeRel.aligned ?_ n addr.toNat
  cases regionOf addr with
  | char | unknown => exact .next ⟨by rw [h.pread], h⟩
  | attr => exact .next ⟨h.attrRead _ n, h⟩
  | graphics => exact .next (h.graphicsRead _ n)
  | absent => exact .next ⟨rfl, h⟩
  | msw =>
    refine .next ⟨?_, h⟩
    obtain ⟨l, c, rfl⟩ := h
    rfl

theorem State.alike.decoderWrite (n : PortWidth) (addr : Word) (v : Half) :
    OutcomeRel State.alike (decoderWrite n addr v s) (decoderWrite n addr v t) := by
  refine OutcomeRel.aligned ?_ n addr.toNat
  cases regionOf addr with
  | char | unknown => exact .next (h.pwrite _ n v)
  | attr => exact .next (h.attrWrite _ n v)
  | graphics => exact .next (h.graphicsWrite _ n v)
  | msw | absent => exact .next h

end

theorem decoderReads_alike (n : PortWidth) : ∀ (k : Nat) (addr : Word) {s t : State}, s.alike t →
    OutcomeRel alikeWith (decoderReads n k addr s) (decoderReads n k addr t)
  | 0, _, _, _, h => .next ⟨rfl, h⟩
  | k + 1, addr, _, _, h => (h.decoderRead n addr).andThen fun _ _ ⟨hv, hs⟩ =>
      (decoderReads_alike n k _ hs).andThen fun _ _ ⟨hw, ht⟩ => .next ⟨by rw [hv, hw], ht⟩

theorem decoderWrites_alike (n : PortWidth) : ∀ (k : Nat) (addr data : Word) {s t : State}, s.alike t →
    OutcomeRel State.alike (decoderWrites n k addr data s) (decoderWrites n k addr data t)
  | 0, _, _, _, _, h => .next h
  | k + 1, addr, _, _, _, h => (h.decoderWrite n addr _).andThen fun _ _ hs => decoderWrites_alike n k _ _ hs

/-! ### Deliveries to a handler -/

theorem readBytes_alike {f : Word → State → Byte × State} (hf : ∀ a s t, s.alike t → alikeWith (f a s) (f a t)) :
    ∀ (n : Nat) (addr : Word) (s t : State), s.alike t → alikeWith (readBytes f n addr s) (readBytes f n addr t)
  | 0, _, _, _, h => ⟨rfl, h⟩
  | n + 1, addr, s, t, h => by
    obtain ⟨hv, hs⟩ := hf addr s t h
    obtain ⟨hw, ht⟩ := readBytes_alike hf n (addr + 1) _ _ hs
    exact ⟨by rw [readBytes, readBytes, hv, hw], ht⟩

theorem writeBytes_alike {f : Word → Byte → State → State} (hf : ∀ a b s t, s.alike t → (f a b s).alike (f a b t)) :
    ∀ (n : Nat) (addr data : Word) (s t : State), s.alike t →
      (writeBytes f n addr data s).alike (writeBytes f n addr data t)
  | 0, _, _, _, _, h => h
  | n + 1, addr, _, _, _, h => writeBytes_alike hf n (addr + 1) _ _ _ (hf addr _ _ _ h)

section
variable {s t : State} (h : s.alike t)
include h

theorem State.alike.linearValue (g : Tag) (w : Width) (addr : Word) :
    t.linearValue g w addr = s.linearValue g w addr := by
  obtain ⟨l, c, rfl⟩ := h
  cases w <;> rfl

theorem State.alike.linearWrite (flat : Word → Nat) (place : Nat → Nat) (w : Width) (addr data : Word) :
    (linearWrite flat place w addr data s).alike (linearWrite flat place w addr data t) :=
  rel_ite State.alike .rfl (h.vwrite _ w data)
    (writeBytes_alike (fun a b _ _ hs => hs.putByte (place (flat a)) b) _ addr data s t h)

theorem State.alike.linearStore (g : Tag) (w : Width) (addr data : Word) :
    (s.linearStore g w addr data).alike (t.linearStore g w addr data) := by
  have hwrite := h.linearWrite (s.linearAt g s.binding.bankWriteFull) (linearPlace g) w addr data
  obtain ⟨l, c, rfl⟩ := h
  exact hwrite

theorem State.alike.latchedRead {g : Tag} (hg : g.latched = true) (addr : Word) :
    alikeWith (latchedRead g addr s) (latchedRead g addr t) := by
  have hbyte (i : Nat) (raw : Bool) (p : Plane) := h.planarReadByte i raw p
  obtain ⟨l, c, rfl⟩ := h
  obtain rfl | rfl | rfl := latched_cases hg
  all_goals exact hbyte _ _ _

theorem State.alike.latchedWrite {g : Tag} (hg : g.latched = true) (addr : Word) (b : Byte) :
    (latchedWrite g addr b s).alike (latchedWrite g addr b t) := by
  have hbyte (i : Nat) (lanes : Word) := h.planarWriteByte i b lanes
  obtain ⟨l, c, rfl⟩ := h
  obtain rfl | rfl | rfl := latched_cases hg
  all_goals exact hbyte _ _

theorem State.alike.serveRead (g : Tag) (w : Width) (addr : Word) :
    OutcomeRel alikeWith (serveRead g w addr s) (serveRead g w addr t) := by
  cases g with
  | unmapped | text | cgaSnowText | hercules | tandy | pcjr | amstrad => exact .refused _
  | pc98 => exact decoderReads_alike _ _ _ h.debitRead
  | unchained | chainedVgaSlow | chainedVgaEt4kSlow =>
    rw [serveRead_latched rfl, serveRead_latched rfl]
    exact .next (readBytes_alike (fun a _ _ hs => hs.latchedRead rfl a) _ addr _ _ h.debitRead)
  | chainedEga | chainedVga | chainedVgaEt4k | linear =>
    rw [serveRead_byteLinear rfl, serveRead_byteLinear rfl]
    exact .next ⟨h.debitRead.linearValue _ w addr, h.debitRead⟩

theorem State.alike.serveWrite (g : Tag) (w : Width) (addr data : Word) :
    OutcomeRel State.alike (serveWrite g w addr data s) (serveWrite g w addr data t) := by
  cases g with
  | unmapped | text | cgaSnowText | hercules | tandy | pcjr | amstrad => exact .refused _
  | pc98 => exact decoderWrites_alike _ _ _ _ h.debitWrite
  | unchained | chainedVgaSlow | chainedVgaEt4kSlow =>
    rw [serveWrite_latched rfl, serveWrite_latched rfl]
    exact .next (writeBytes_alike (fun a b _ _ hs => hs.latchedWrite rfl a b) _ addr data _ _ h.debitWrite)
  | chainedEga | chainedVga | chainedVgaEt4k | linear =>
    rw [serveWrite_byteLinear rfl, serveWrite_byteLinear rfl]
    exact .next (h.debitWrite.linearStore _ w addr data)

theorem State.alike.handlerAt (addr : Word) : t.handlerAt addr = s.handlerAt addr := by
  obtain ⟨l, c, rfl⟩ := h
  rfl

theorem State.alike.busSplit (w : Width) (addr : Word) : t.busSplit w addr = s.busSplit w addr := by
  obtain ⟨l, c, rfl⟩ := h
  rfl

end

/-! ### Transactions -/

theorem readParts_alike (w : Width) : ∀ (k : Nat) (addr : Word) {s t : State}, s.alike t →
    OutcomeRel alikeWith (readParts w k addr s) (readParts w k addr t)
  | 0, _, _, _, h => .next ⟨rfl, h⟩
  | k + 1, addr, _, _, h => by
    rw [readParts, readParts, h.handlerAt]
    exact (h.serveRead _ w addr).andThen fun _ _ ⟨hv, hs⟩ =>
      (readParts_alike w k _ hs).andThen fun _ _ ⟨hw, ht⟩ => .next ⟨by rw [hv, hw], ht⟩

theorem writeParts_alike (w : Width) : ∀ (k : Nat) (addr data : Word) {s t : State}, s.alike t →
    OutcomeRel State.alike (writeParts w k addr data s) (writeParts w k addr data t)
  | 0, _, _, _, _, h => .next h
  | k + 1, addr, data, _, _, h => by
    rw [writeParts, writeParts, h.handlerAt]
    exact (h.serveWrite _ w addr data).andThen fun _ _ hs => writeParts_alike w k _ _ hs

section
variable {s t : State} (h : s.alike t)
include h

theorem State.alike.memRead (w : Width) (addr : Word) : OutcomeRel alikeWith (memRead w addr s) (memRead w addr t) := by
  rw [Machine.memRead, Machine.memRead, h.busSplit]
  exact readParts_alike _ _ addr h

theorem State.alike.memWrite (w : Width) (addr data : Word) :
    OutcomeRel State.alike (memWrite w addr data s) (memWrite w addr data t) := by
  rw [Machine.memWrite, Machine.memWrite, h.busSplit]
  exact writeParts_alike _ _ addr data h

/-! ### Rows -/

/-- Every row takes alike states to alike states, or stops on both for the same reason: row by row, as the operations
each row runs. -/
theorem State.alike.exec (i : Instr) : OutcomeRel State.alike (exec i s) (exec i t) := by
  cases i with
  | rd8 | rd16 | rd32 => exact (h.memRead _ _).finishRead _
  | wr8 | wr16 | wr32 => exact (h.memWrite _ _ _).finishWrite
  -- rows that answer a value, or write one field, from the fields that are the same
  | ropNone | ropAnd | ropOr | ropXor | wm0 | wm1 | wm2 | wm3 | rm0 | rm1 | shDmask | egcFgc0 | egcFgc1 | egcFgc2
  | egcFgc3 | egcRlNone | egcropC0 | egcropF0 | egcropFC | egcrop0C | cfg | tileLoad | egcReinit | shReinit | winsel0
  | winsel1 | winsel2 | winsel3 =>
    obtain ⟨l, c, rfl⟩ := h
    exact .next ⟨l, c, rfl⟩
  | reset => exact h.resetAll.out rfl
  | dispatch => exact h.dispatch.out rfl
  | dispUnmapped | dispUnchained | dispChainedEga | dispChainedVga | dispChainedVgaSlow | dispChainedVgaEt4k
  | dispChainedVgaEt4kSlow | dispLinear | dispPc98 | dispText | dispCgaSnowText | dispHercules | dispTandy | dispPcjr
  | dispAmstrad => exact (h.dispatchWith _).out rfl
  | wmUnsup mode => exact (h.logOnce .writeMode mode).out rfl
  -- refused rows
  | unmappedRd | unmappedWr | textRd | textWr | cgaSnowTextRd | cgaSnowTextWr | herculesRd | herculesWr | tandyRd
  | tandyWr | pcjrRd | pcjrWr | amstradRd | amstradWr => exact .refused _
  | unchainedRd => exact (h.serveRead .unchained _ _).finishRead _
  | chainedEgaRd => exact (h.serveRead .chainedEga _ _).finishRead _
  | chainedVgaRd => exact (h.serveRead .chainedVga _ _).finishRead _
  | chainedVgaSlowRd => exact (h.serveRead .chainedVgaSlow _ _).finishRead _
  | chainedVgaEt4kRd => exact (h.serveRead .chainedVgaEt4k _ _).finishRead _
  | chainedVgaEt4kSlowRd => exact (h.serveRead .chainedVgaEt4kSlow _ _).finishRead _
  | linearRd => exact (h.serveRead .linear _ _).finishRead _
  | pc98Rd => exact (decoderReads_alike _ _ _ h.debitRead).finishRead _
  | unchainedWr => exact (h.serveWrite .unchained _ _ _).finishWrite
  | chainedEgaWr => exact (h.serveWrite .chainedEga _ _ _).finishWrite
  | chainedVgaWr => exact (h.serveWrite .chainedVga _ _ _).finishWrite
  | chainedVgaSlowWr => exact (h.serveWrite .chainedVgaSlow _ _ _).finishWrite
  | chainedVgaEt4kWr => exact (h.serveWrite .chainedVgaEt4k _ _ _).finishWrite
  | chainedVgaEt4kSlowWr => exact (h.serveWrite .chainedVgaEt4kSlow _ _ _).finishWrite
  | linearWr => exact (h.serveWrite .linear _ _ _).finishWrite
  | pc98Wr => exact (decoderWrites_alike _ _ _ _ h.debitWrite).finishWrite
  | pc98MswRd n addr =>
    refine (State.alike.out h ?_).aligned n _
    obtain ⟨l, c, rfl⟩ := h
    rfl
  | pc98MswWr n | pc98AbsentRd n | pc98AbsentWr n => exact (h.out rfl).aligned n _
  | pc98CharRd n | pc98UnknownRd n => exact (h.out (by rw [h.pread])).aligned n _
  | pc98AttrRd n => exact (h.out (by rw [h.attrRead])).aligned n _
  | vopPassRd _ n | vopTileMaskRd _ n => exact (h.out (by rw [h.passRead])).aligned n _
  | vopTileCopyRd _ n => exact (h.out (by rw [h.tileCopyRead])).aligned n _
  | pc98CharWr n _ v | pc98UnknownWr n _ v => exact ((h.pwrite _ n v).out rfl).aligned n _
  | pc98AttrWr n _ v => exact ((h.attrWrite _ n v).out rfl).aligned n _
  | vopPassWr _ n _ v => exact ((h.passWrite _ n v).out rfl).aligned n _
  | vopTileCopyWr _ n => exact ((h.tileCopyWrite _ n).out rfl).aligned n _
  | vopTileMaskWr _ n _ v => exact ((h.tileMaskWrite _ n v).out rfl).aligned n _
  | pc98GraphicsRd n addr =>
    obtain ⟨hv, hs⟩ := h.graphicsRead (fold addr) n
    exact (hs.out (by rw [hv])).aligned n _
  | pc98GraphicsWr n _ v => exact ((h.graphicsWrite _ n v).out rfl).aligned n _
  | vopEgcRd _ n off =>
    obtain ⟨hv, hs⟩ := h.egcRead off.toNat n
    exact (hs.out (by rw [hv])).aligned n _
  | vopEgcWr _ n _ v => exact ((h.egcWrite _ n v).out rfl).aligned n _
  | shIn8 => exact (h.shiftIn8 _ _).out rfl
  | shIn16 => exact (h.shiftIn16 _).out rfl
  | shOut8 ln rec => exact (h.shiftOut8 ln rec).out rfl
  | shOut16 => exact h.shiftOut16.out rfl
  | egcLs0 a n val | egcLs3 a n val =>
    obtain ⟨l, c, rfl⟩ := h
    exact OutcomeRel.aligned (.next ⟨l, c, rfl⟩) n _
  | egcLs1 a n val => exact (h.light1 a.toNat n val).row.aligned n _
  | egcLs2 a n val => exact (h.light2 a.toNat n val).row.aligned n _
  | egcRlRead both a n =>
    cases both with
    | false => exact ((h.tilesFromLast _ n).out rfl).aligned n _
    | true => exact (((h.tilesFromLast _ n).tilesFromVram _ n).out rfl).aligned n _
  | egcRlWrite a n => exact ((h.tilesFromVram _ n).out rfl).aligned n _
  | egcropPat code a =>
    have hstub := (h.ropStub code).2.out (congrArg Out.quad (h.ropStub code).1)
    obtain ⟨l, c, rfl⟩ := h
    exact rel_ite (OutcomeRel State.alike) .rfl (.next ⟨l, c, rfl⟩) hstub
  | egcropStub code => exact (h.ropStub code).2.out (congrArg Out.quad (h.ropStub code).1)

end

/-- Settles O8: states that differ in marks and budget are alike, and every row takes alike states to alike states. -/
theorem loggedAndCyclesNeverRead : Obligations.LoggedAndCyclesNeverRead := by
  unfold Obligations.LoggedAndCyclesNeverRead
  intro i s t l c e
  have hrel := State.alike.exec (⟨l, c, rfl⟩ : s.alike ((s.setLogged l).setCyclesLeft c)) i
  rw [e] at hrel
  obtain ⟨u, hu, l', c', rfl⟩ := hrel.next_left
  exact ⟨l', c', hu⟩

end Sys2Proof.Machine
end

section
/-! The whole-machine reset and the cycle budget (R350, R370): what RESET leaves, read off its one update, and the debit of
an access through a served tag. -/

namespace Sys2Proof.Machine

/-! ### RESET (R350) -/

theorem exec_egcReinit (s : State) : exec .egcReinit s = .next (s.reinit.setOut .none) := rfl

/-- Settles O11: the fields of RESET's one update, whose Shifter and Binding are those of EGC_REINIT and DISPATCH on the
same state; the rest is the frame of the row. -/
theorem resetEffect : Obligations.ResetEffect := by
  unfold Obligations.ResetEffect
  intro s
  exact ⟨_, _, _, exec_reset s, exec_egcReinit s, exec_dispatch s, Memory.read_nil, rfl, rfl, rfl, rfl,
    exec_keeps (exec_reset s)⟩

/-! ### One debit per access (R120, R370) -/

/-- A read delivered to a served handler completes, debits the read delay and leaves VRAM. -/
theorem serveRead_debits {h : Tag} (hs : h.served = true) (w : Width) (addr : Word) (s : State) :
    ∃ v u, serveRead h w addr s = .next (v, u) ∧ u.cyclesLeft = s.cyclesLeft - s.plat.readDelay ∧ u.vram = s.vram := by
  obtain ⟨v, u, -, hu⟩ := serveRead_completes hs w addr s
  have serve := hu s.cyclesLeft s.out
  exact ⟨v, _, serve, rfl, serveRead_keeps serve .vram (by decide)⟩

/-- A write delivered to a served handler completes, debits the write delay and leaves the Latch. -/
theorem serveWrite_debits {h : Tag} (hs : h.served = true) (w : Width) (addr data : Word) (s : State) :
    ∃ u, serveWrite h w addr data s = .next u ∧ u.cyclesLeft = s.cyclesLeft - s.plat.writeDelay ∧ u.latch = s.latch := by
  obtain ⟨u, hu⟩ := serveWrite_completes hs w addr data s
  have serve := hu s.cyclesLeft s.out
  exact ⟨_, serve, rfl, serveWrite_keeps serve .latch (by decide)⟩

/-- Settles O26: each row is one delivery to its handler (an aligned one, for a word to the decoder), and its end writes
the output port only. -/
theorem accessDebitsOnce : Obligations.AccessDebitsOnce := by
  unfold Obligations.AccessDebitsOnce
  intro s h w addr data hserved hdirect
  constructor
  · obtain ⟨v, u, hserve, hcycles, hvram⟩ := serveRead_debits hserved w addr s
    have hrow := (exec_busRd s hdirect).trans (finishRead_next_iff.2 ⟨v, u, hserve, rfl⟩)
    exact ⟨_, hrow, hcycles, hvram⟩
  · obtain ⟨u, hserve, hcycles, hlatch⟩ := serveWrite_debits hserved w addr data s
    have hrow := (exec_busWr data s hdirect).trans (finishWrite_next_iff.2 ⟨u, hserve, rfl⟩)
    exact ⟨_, hrow, hcycles, hlatch⟩

end Sys2Proof.Machine
end
